-- ==== Sys2Proof/Word.lean ====
section
/-! DEFINITION. The word types of the Peleno 96 and their plainest arithmetic (R7, R8). -/

namespace Sys2Proof

/-- One byte. -/
abbrev Byte := BitVec 8
/-- A 32-bit word: a lane, an accumulator entry, a stream word. -/
abbrev Word32 := BitVec 32
/-- A 64-bit word: a register, a scalar register, a slot. -/
abbrev Word64 := BitVec 64
/-- A string of bytes, lowest address first. -/
abbrev Bytes := List Byte

end Sys2Proof
end

