-- ==== Sys2Proof/Syntax.lean ====
section
/-! DEFINITION. The commands of the Peleno 96: one constructor of `Instr` for each row of
spec/opcode_table.json, with the operands its step takes. A slot of a bundle carries no operand
bits here: the sequencer fetches the bundle's words from the stream's memory (R132). -/

namespace Sys2Proof

/-- A fabric frame as it arrives at a port, its header decoded (Table 11.6). `tagOk` says whether the
GCM tag of an encrypted frame passed its check (R319). -/
structure Frame where
  dst : BitVec 16
  src : BitVec 16
  typ : BitVec 4
  vc : BitVec 2
  cls : Bool
  enc : Bool
  sidestep : Bool
  blocked : BitVec 2
  sidesteps : BitVec 2
  length : BitVec 13
  hops : BitVec 6
  crc : BitVec 32
  ext : Bytes
  payload : Bytes
  tagOk : Bool
  deriving DecidableEq, Repr

/-- The flit of a link block (Table 11.1, FLIT0 and FLIT1). -/
structure Flit where
  valid : Bool
  vc : BitVec 2
  cls : Bool
  start : Bool
  isEnd : Bool
  abort : Bool
  units : BitVec 4
  deriving DecidableEq, Repr

/-- A link block as it arrives: how many of its 448 symbols are wrong, and its control field (R309, Table 11.1). -/
structure LinkBlock where
  errors : Nat
  seq : BitVec 12
  ack : BitVec 12
  nak : Bool
  creditVc : BitVec 2
  creditClass : Bool
  credits : BitVec 8
  flit0 : Flit
  flit1 : Flit
  deriving DecidableEq, Repr

/-- The HELLO of an authentication (Table 11.5, step 1). -/
structure Hello where
  nonce : Bytes
  fabricId : BitVec 64
  addr : BitVec 16
  port : BitVec 3
  encrypt : Bool
  key : Bytes
  chain : Bytes
  deriving DecidableEq, Repr

/-- The content of an AUTH frame: a HELLO, or a PROOF with its signature (R317). -/
inductive AuthMsg where
  | hello (h : Hello)
  | proof (signature : Bytes)
  deriving DecidableEq, Repr

/-- A mismatch that the arrays' own checks find in an activation row (R100, R101): kind 0 column residue,
1 escape residue, 2 tap duplicate; array, logical column and tap. -/
structure Mismatch where
  kind : BitVec 2
  array : BitVec 2
  column : BitVec 7
  tap : BitVec 2
  deriving DecidableEq, Repr

/-- How a block goes through an expander: whether its stage-buffer read meets an uncorrectable error (R179), and, should the
block fail, how many activation rows the array takes from it before the fault is found (R98). -/
structure BlockIn where
  ue : Bool
  taken : Nat
  deriving DecidableEq, Repr

/-- How a DRAIN converts: whether with the square-grouping option, for which the spec gives no field (R87), and whether its
accumulator read meets an uncorrectable error (R179). -/
structure ConvertIn where
  square : Bool
  ue : Bool
  deriving DecidableEq, Repr

/-- A stream context of a core, and whether what the slot of its bundle reads in the core's stage or accumulator buffer
meets an uncorrectable error (R179). -/
structure CtxIn where
  x : Nat
  ue : Bool
  deriving DecidableEq, Repr

/-- What a command names, and whether the read of host memory that it needs fails (R265, Table 9.6). -/
structure HostIn where
  n : Nat
  readFailed : Bool
  deriving DecidableEq, Repr

/-- A matrix engine, and whether the weights that it loads from the stage buffer meet an uncorrectable error (R179). -/
structure EngineIn where
  e : Nat
  ue : Bool
  deriving DecidableEq, Repr

/-- What goes wrong in an activation row: a mismatch of the arrays' checks (R100), or an uncorrectable error in the
stage-buffer or accumulator words that it reads (R179). -/
structure RowIn where
  mis : Option Mismatch
  ue : Bool
  deriving DecidableEq, Repr

/-- What the buffers give as a transfer reads them: the single-bit errors corrected in the die buffer, and whether a word of
the stage buffer meets an uncorrectable error (R179). -/
structure BufIn where
  dieFixed : Nat
  ue : Bool
  deriving DecidableEq, Repr

/-- One Reed-Solomon codeword of a stack with errors: its 64-byte unit, which of the two codewords of the unit it is, and the
DRAM dies whose symbols are wrong (R177). -/
structure CodeErr where
  unit : Nat
  word : Nat
  dies : List Nat
  deriving DecidableEq, Repr

/-- What one sideshow act held in a share window (R214): its act, the share in 1/256 units, and whether it
had a stream ready throughout. -/
structure ShareHeld where
  act : Nat
  share : Nat
  ready : Bool
  deriving DecidableEq, Repr

/-- A rebinding of context 1 made at a share window's end (R205, R231): the physical core and the command
queue whose stream is bound there. -/
structure Rebind where
  core : Nat
  queue : Nat
  deriving DecidableEq, Repr

/-- What a far port found in training (R405): lanes trained, whether a Type 3 device was enumerated, and its
mapped capacity in GiB. -/
structure FarTrain where
  port : Nat
  width : Nat
  deviceOk : Bool
  capGib : Nat
  deriving DecidableEq, Repr

/-- One core's failure of a start-up self-test (Table 13.6): the physical core, the function, s2 and s3. -/
structure TestFail where
  unit : Nat
  fn : Nat
  s2 : Nat
  s3 : Nat
  deriving DecidableEq, Repr

/-- A boundary-scan instruction of R396. -/
inductive TapInstr where
  | bypass | idcode | samplePreload | extest | clamp | highz | extestPulse | extestTrain
  deriving DecidableEq, Repr

/-- An MCTP packet's PLDM content (R394). -/
inductive PldmMsg where
  | base
  | sensor (id : Nat)
  | fru
  deriving DecidableEq, Repr

/-- The commands. `fn` is a PCIe function (0 the PF, k the VF of act k), `core` a physical core, `ctx` a
stream context, `e` an engine (0 forward, 1 backward), `q` a queue ID, `m` a Midway, `slot` a Carousel
slot, `p` a fabric port. -/
inductive Instr where
  -- register accesses
  | registerWrite (fn off size val : Nat)
  | rcRead (fn off size : Nat)
  | unsupportedBar0Access (fn off size : Nat)
  | tileNanClear (core : Nat)
  | xpfaultClear (core : Nat)
  | vxFaultClear (core : Nat)
  | seqFaultClear (core ctx : Nat)
  | carPoisonClear (act : Nat)
  | resInject (core : Nat)
  | accSplitApply (core : Nat)
  -- bundles
  | emptyBundle (core ctx : Nat)
  | nop (core ctx slot : Nat)
  | bundleRetire (core ctx : Nat)
  | notify (core ctx : Nat)
  | resumeRecord (core ctx : Nat)
  | runCountHalt (q : Nat)
  -- matrix engines
  | product (core : Nat) (ctx : CtxIn) (e : Nat)
  | weightLoad (core : Nat) (e : EngineIn)
  | activationRow (core e : Nat) (mis : RowIn)
  | productComplete (core e : Nat)
  | expanderBlock (core port : Nat) (how : BlockIn)
  | tableFetchDone (core port : Nat)
  -- VEC slot
  | add (core ctx : Nat)
  | sub (core ctx : Nat)
  | mul (core ctx : Nat)
  | fma (core ctx : Nat)
  | min (core ctx : Nat)
  | max (core ctx : Nat)
  | abs (core ctx : Nat)
  | neg (core ctx : Nat)
  | cpysgn (core ctx : Nat)
  | div (core ctx : Nat)
  | sqrt (core ctx : Nat)
  | exp2 (core ctx : Nat)
  | log2 (core ctx : Nat)
  | rcp (core ctx : Nat)
  | rsq (core ctx : Nat)
  | iadd (core ctx : Nat)
  | isub (core ctx : Nat)
  | imul (core ctx : Nat)
  | imin (core ctx : Nat)
  | imax (core ctx : Nat)
  | and (core ctx : Nat)
  | or (core ctx : Nat)
  | xor (core ctx : Nat)
  | shl (core ctx : Nat)
  | shr (core ctx : Nat)
  | sra (core ctx : Nat)
  | cvt (core ctx : Nat)
  | cmp (core ctx : Nat)
  | mand (core ctx : Nat)
  | mor (core ctx : Nat)
  | mxor (core ctx : Nat)
  | mandn (core ctx : Nat)
  | mnot (core ctx : Nat)
  | mset (core ctx : Nat)
  | bcast (core ctx : Nat)
  | iota (core ctx : Nat)
  | compress (core ctx : Nat)
  | expand (core ctx : Nat)
  | lda (core ctx : Nat) (ue : Bool)
  | sta (core ctx : Nat)
  | ld (core ctx : Nat) (ue : Bool)
  | st (core ctx : Nat)
  | ldx (core ctx : Nat) (ue : Bool)
  | stc (core ctx : Nat)
  | gather (core ctx : Nat) (ue : Bool)
  | scatter (core ctx : Nat)
  | rsum (core ctx : Nat)
  | rmax (core ctx : Nat)
  | rmin (core ctx : Nat)
  | ramax (core ctx : Nat)
  | risum (core ctx : Nat)
  | mpopc (core ctx : Nat)
  | sortLoad (core ctx : Nat)
  | sortRun (core ctx : Nat)
  | sortMerge (core ctx : Nat)
  | sortDone (core : Nat)
  | sortOut (core ctx : Nat)
  -- ROW slot
  | smaxAcc (core : Nat) (ctx : CtxIn)
  | smaxScale (core : Nat) (ctx : CtxIn)
  | smaxFin (core : Nat) (ctx : CtxIn)
  | smaxFull (core : Nat) (ctx : CtxIn)
  | smaxBwd (core : Nat) (ctx : CtxIn)
  | dot (core : Nat) (ctx : CtxIn)
  | normFwd (core : Nat) (ctx : CtxIn)
  | normBwd (core : Nat) (ctx : CtxIn)
  | statSave (core : Nat) (ctx : CtxIn)
  | statLoad (core : Nat) (ctx : CtxIn)
  -- CTRL slot
  | sadd (core ctx : Nat)
  | ssub (core ctx : Nat)
  | smul (core ctx : Nat)
  | sand (core ctx : Nat)
  | sor (core ctx : Nat)
  | sxor (core ctx : Nat)
  | sshl (core ctx : Nat)
  | sshr (core ctx : Nat)
  | ssra (core ctx : Nat)
  | smin (core ctx : Nat)
  | smax (core ctx : Nat)
  | sli (core ctx : Nat)
  | slih (core ctx : Nat)
  | saddi (core ctx : Nat)
  | scmp (core ctx : Nat)
  | sfcmp (core ctx : Nat)
  | pand (core ctx : Nat)
  | por (core ctx : Nat)
  | pxor (core ctx : Nat)
  | pnot (core ctx : Nat)
  | br (core ctx : Nat)
  | brs (core ctx : Nat)
  | loop (core ctx : Nat)
  | breakif (core ctx : Nat)
  | slc (core ctx : Nat)
  | acd (core ctx : Nat)
  | sstep (core ctx : Nat)
  | calllib (core ctx : Nat)
  | libraryReturn (core ctx : Nat) (s1 s2 s3 : Word64)
  -- transfers and memory
  | dinCopy (core : Nat) (ctx : CtxIn)
  | doutCopy (core : Nat) (ctx : CtxIn)
  | drain (core : Nat) (ctx : CtxIn)
  | drainConvert (core ctx : Nat) (how : ConvertIn)
  | transferDone (core ctx idx : Nat) (how : BufIn) (dieBad : List Nat)
  | nearRequest (addr len : Nat) (write : Bool) (errors : List CodeErr)
  | patrolScrub (stack : Nat) (errors : List CodeErr) (written : List Nat)
  | farCompletion (port idx : Nat) (poison : Bool)
  | farRequestTimeout (port idx : Nat)
  | sbSideshowApply (core : Nat)
  -- SYNC slot
  | fence (core ctx : Nat)
  | signal (core ctx : Nat)
  | signalApply (core ctx : Nat)
  | wait (core ctx : Nat)
  | waitDeadline (core ctx : Nat)
  | cuewait (core ctx : Nat)
  | bucket (core ctx : Nat)
  | event (core ctx : Nat)
  -- Show Clock, cues and acts
  | refPpsEdge (errPs : Int)
  | ptpCommit (tick : Nat)
  | referenceLoss
  | cueWrite (fn entry word val : Nat)
  | cueFire (entry : Nat)
  | headlineRequest (val : Nat)
  | headlineChange
  | bubbleBegin (core : Nat)
  | bubbleEnd (core : Nat)
  | preemptAbandon (core : Nat)
  | sideshowResume (core : Nat)
  | shareWindowEnd (held : List ShareHeld) (rebinds : List Rebind)
  | scrubComplete (core : Nat)
  | ssRegionApply (core : Nat)
  -- host interface and queues
  | vfFlr (k : Nat)
  | pfFlr
  | apertureRead (fn off len : Nat)
  | apertureWrite (fn off : Nat) (data : Bytes)
  | doorbell (fn off size val : Nat)
  | create (fn : Nat)
  | start (fn : Nat)
  | stop (fn : Nat)
  | queueStopped (q : Nat)
  | reset (fn : Nat)
  | resetDone (q : Nat)
  | skip (fn : Nat)
  | resume (fn : Nat)
  | destroy (fn : Nat)
  | commandEntryFetch (q : Nat)
  | streamBind (q : Nat)
  | streamEnd (core ctx : Nat)
  | cueEntry (q : Nat)
  | copyMessageArrive (q : Nat)
  | dinReceive (core ctx idx : Nat) (readFailed : Bool)
  | msixTimer (q : Nat)
  | msixUnmask (fn vec : Nat)
  | evtTest (sx : Word64)
  -- input pipeline
  | sampleFetch (q : Nat)
  | tableLoadCommit (tslot : HostIn)
  | decodeDispatch (m kind engine : Nat)
  | decodeComplete (q : Nat) (count : HostIn)
  | decodeBudgetTimeout (q count : Nat)
  | staleTimeout (q count : Nat)
  | batchEmit (q : Nat)
  | batchRelease (q : Nat)
  -- Carousel and optimizer
  | bucketHandover (core ctx : Nat)
  | bucketStart (m slot : Nat)
  | scratchReadDone (m slot : Nat)
  | carouselBlockSend (m slot : Nat)
  | block (p : Nat) (f : Frame)
  | rereq (p : Nat) (f : Frame)
  | vote (p : Nat) (f : Frame)
  | optimizerTakeShard (engine m slot : Nat)
  | optimizerCommit (m slot : Nat)
  | gatherBlockReceive (p : Nat) (f : Frame)
  | bucketPeerDeadline (m slot : Nat)
  -- fabric
  | linkBlockReceive (p : Nat) (b : LinkBlock)
  | trainingComplete (p : Nat)
  | trainingTimeout (p : Nat) (signal : Bool)
  | auth (p : Nat) (f : Frame) (msg : AuthMsg)
  | authTimeout (p : Nat)
  | rekey (p : Nat)
  | creditTimeout (p vc : Nat) (cls : Bool)
  | degradedReturn (p : Nat)
  | quarantineRetry (p : Nat)
  | laneLockLoss (p lane : Nat)
  | retry (p : Nat)
  | disable (p : Nat)
  | linkEnable (p : Nat)
  | frameForward (p : Nat) (f : Frame)
  | copy (p : Nat) (f : Frame)
  | ack (p : Nat) (f : Frame)
  | frameResendTimeout (idx : Nat)
  | time (p : Nat) (f : Frame) (rxNs rxFrac : Nat)
  | timeFrameSend (p : Nat) (txNs txFrac : Nat)
  | linkState (p : Nat) (f : Frame)
  | unreachable (p : Nat) (f : Frame)
  -- Safety Net
  | coreWatchdog (core ctx : Nat)
  | fencedTransferAbandon (core : Nat)
  | spareTestDone (core : Nat) (passed : Bool)
  | recoverResume (core : Nat)
  | doubledSwapTimeout (core : Nat)
  | stackInterfaceLoss (stack : Nat)
  | crossLinkError
  | midwayUe (m : Nat)
  | heartbeatSend
  | beat (p : Nat) (f : Frame)
  | heartbeatTimeout (nb : Nat)
  | suspect (p : Nat) (f : Frame)
  | probe (p : Nat) (f : Frame)
  | probeReply (p : Nat) (f : Frame)
  | probeTimeout (subject : Nat)
  | lost (p : Nat) (f : Frame)
  | suspectEscalateTimeout (subject : Nat)
  | halt (p : Nat) (f : Frame)
  | remap (p : Nat) (f : Frame)
  | restoreComplete
  | checkpointFrame (p : Nat) (f : Frame)
  | sliceAck (p : Nat) (f : Frame)
  | ckptDone (p : Nat) (f : Frame)
  | ckptCommit (p : Nat) (f : Frame)
  | restored (p : Nat) (f : Frame)
  | railSample (r mv : Nat)
  | tempSample (t : Nat) (temp : Int)
  | retest (core : Nat)
  | retestDone (core : Nat) (passed : Bool)
  | mirrorPageProgram
  | freeze
  | thaw
  | pwrWarnAssert
  -- start-up
  | vinQualified
  | railRegulated (order : Nat)
  | railSequenceFail
  | railRetry
  | vinLoss
  | resetRelease
  | rstNAssert
  | reboot (val : Nat)
  | firmwareVerify
  | playbillSelect (errA errB : Bool)
  | stackTrainingComplete (trained : BitVec 32) (far : List FarTrain)
  | selfTestComplete (cores stackFails : List TestFail)
  | linkBringupComplete
  | timeWaitTimeout
  | flashErase
  | flashProgram
  | flashRead
  | flashCmdDone
  -- module hardware
  | throttleAdjust (mv ma watts1ms watts100ms k : Nat)
  | setEndpointId (eid : Nat) (pecOk : Bool)
  | pldmRequest (msg : PldmMsg) (pecOk : Bool)
  | requestUpdate (component : Nat) (pecOk : Bool)
  | verifyComplete
  | activateFirmware (pecOk : Bool)
  | cancelUpdate (pecOk : Bool)
  | updateIr (die : Nat) (instr : TapInstr)
  | submit
  | relock
  | unlockExpiry
  | pwrWarnNRise
  | msixMask (fn vec : Nat)
  | mirrorPageDone
  | streamFetchDone (core ctx : Nat)
  | slewComplete
  | componentImageWrite (component off : Nat) (data : Bytes) (pecOk : Bool)
  deriving DecidableEq, Repr

end Sys2Proof
end

