-- ==== Sys2Proof/Decode.lean ====
section
/-! DEFINITION. Decoding a word of the opcode table. Every row of spec/opcode_table.json is an event or a host
access and gives no bits, so no word spells a command. The words of streams and slots are decoded by the
machine itself (Machine/Bundle.lean). -/

namespace Sys2Proof

/-- The command that a word spells by the table's bits: none, since no row gives bits. -/
def decodeTableWord (_nbits _w : Nat) : Option Instr := none

end Sys2Proof
end

