-- ==== Sys2Proof/Config.lean ====
section
/-! DEFINITION. What the spec leaves to the part and never states, as constants without a body: nothing can
prove a value of them, so a statement holds for every value (free values; log 7, 8 and those named below). -/

namespace Sys2Proof.Config

/-- The severity of an event whose severity the spec does not state, by type and status (Table 8.8 gives the
codes 0 to 3 only). Log 8; safe. -/
opaque severity (typ status : Nat) : BitVec 2

/-- The 40 payload bytes of an event whose payload the spec names an owner for but never lays out, by type,
status, act and stamp. Log 8; safe. -/
opaque eventPayload (typ status act stamp : Nat) : BitVec 320

/-- One byte of a resume record in its resume area: the spec states what the record holds and its size, not its
layout. Log 11; safe. -/
opaque resumeByte (draw i : Nat) : BitVec 8

/-- Which of the results within 1 ulp a fixed function of the vector engine gives for an input: 0 EXP2, 1 LOG2,
2 RCP, 3 RSQ (R107 states the bound and that the result is a fixed function of the input). Log 16; safe. -/
opaque fixedPick (fn : Nat) (x : BitVec 32) : BitVec 8

/-- RSQ(−0), which R107 does not state. Log 16; safe. -/
opaque rsqNegZero : BitVec 32

/-- What a counter field holds after a count past its width, by register, field place and exact count, where the spec
says neither that it wraps nor that it saturates. Log 107; safe. -/
opaque counterOpen (key lo count : Nat) : BitVec 64

/-- Whether FMA raises IEEE_NV on 0 × ∞ plus a quiet NaN: IEEE 754-2019, which R54 follows, leaves it to the
implementation. Log 101; safe. -/
opaque fmaInvalid : Bool

/-- The result of a vector shift by 32 or more, by opcode, value and amount: the spec does not state it. Log 17;
safe. -/
opaque wideShift (op : Nat) (a b : BitVec 32) : BitVec 32

/-- The lane that a register conversion gives for a value its destination type cannot hold, by source type,
destination type and source bits. Log 18; safe. -/
opaque convertOpen (src dst : Nat) (x : BitVec 64) : BitVec 32

/-- The stage address of the scale of group `g` of a block-scaled vector access at `addr` with format `fmt`: the
slot names the element address alone. Log 19; safe. -/
opaque vecScaleAt (fmt addr g : Nat) : BitVec 22

/-- The stage address of the side list of group `g` of a block-scaled vector access. Log 19; safe. -/
opaque vecSideAt (fmt addr g : Nat) : BitVec 22

/-- What a lane of SORT.OUT past the retained list's last pair receives, or what an overfilled load buffer holds:
keys and indices the spec does not state. Log 23; safe. -/
opaque sortOpen (draw i : Nat) : BitVec 32

/-- The side-memory entry, in the context's numbering, from which SMAX.BWD takes the DOT entry of row `r`, by its
first entry and its row count: the slot names one first entry only. Log 27; safe. -/
opaque dotEntry (side rows r : Nat) : BitVec 14

/-- Which row of Table 0.5 is the status of a FABRIC event for a port's state change that R315 gives none: old and new
state. Log 8; safe. -/
opaque portStatus (old new : Nat) : BitVec 5

/-- Which row of Table 0.5 is the status of a FAULT event that the spec gives none: 1 a far port out of service, 2 RESTORED, 3 a rail, 4 a
temperature warning, 5 a throttled die, 6 PWR_WARN_N. Log 72; safe. -/
opaque faultStatus (kind : Nat) : BitVec 5

/-! The cryptographic checks of R316 to R319, R369, R370, R371 and R394: their inputs are stated, the keys and
algorithms' values are not evaluated (log 34; safe). -/

/-- Whether a certificate chain leads to the operator's root, with its validity dates checked against a tick when
one is given (R316). -/
opaque chainOk (chain root : List (BitVec 8)) (tick : Option Nat) : Bool

/-- The serial of a chain's device certificate. -/
opaque chainSerial (chain : List (BitVec 8)) : List (BitVec 8)

/-- Whether a signature over a text verifies under a chain's device key. -/
opaque proofOk (chain text signature : List (BitVec 8)) : Bool

/-- This device's signature over a text. -/
opaque sign (text : List (BitVec 8)) : List (BitVec 8)

/-- This device's certificate chain. -/
opaque ownChain : List (BitVec 8)

/-- The 32-byte nonce of a HELLO. -/
opaque nonce (draw : Nat) : BitVec 256

/-- The ephemeral P-384 public key of a HELLO, 97 bytes. -/
opaque ephemeralKey (draw : Nat) : BitVec 776

/-- Which row of Table 0.5 is the status of the event that a lost time reference writes: not stated (R197; log 46). -/
opaque holdoverStatus : BitVec 5

/-- The coordinate of the time root: no register or Playbill field is stated to give it (R198; log 47). -/
opaque timeRoot : BitVec 16

/-- Which row of Table 0.5 byte 2 of a GUARANTEE_YIELDED payload holds where no status is stated for the condition that
forced the choice (R214, R215; log 48). -/
opaque yieldStatus (broken kept : Nat) : BitVec 5

/-- The shared secret of an ECDH P-384 exchange from two ephemeral public keys, one of them this end's (R319; log 170). -/
opaque ecdh (own partner : List (BitVec 8)) : BitVec 384

/-- The two keys and two salts of a port by HKDF-SHA-384, 72 bytes, from the secret and the two nonces (R319; log 170). -/
opaque hkdf (secret : BitVec 384) (salt : List (BitVec 8)) : BitVec 576

/-- AES-256-GCM: the encrypted bytes with their 16-byte tag, from key, IV, authenticated header and plain bytes (R319; log 170). -/
opaque gcmByte (key iv header plain : List (BitVec 8)) (i : Nat) : BitVec 8

/-- The 40 bytes of parity of a link block's 520 bytes of data and control (R309; the code's polynomials are not stated, log 169). -/
opaque parity (block : List (BitVec 8)) : BitVec 320

/-- Where in a snapshot or buddy area a part of a tag's slice lies (R351; log 79). -/
opaque slicePlace (slot tag part : Nat) : BitVec 48

/-- Where in the payload of a RESTORED event its step lies (R353; log 84). -/
opaque restoredPlace : BitVec 6

/-! The media decoders (R254, R256): fixed functions of the encoded bytes, by kind; what a standard's decoder finds in
a bitstream is not stated in the spec's own text. Log 51. -/

/-- The features of the bitstreams and containers that Table 9.2 tells apart. -/
inductive Feature where
  /-- JPEG's baseline sequential and progressive DCT, and restart intervals. -/
  | baseline | progressive | restart
  /-- JPEG's other processes, a fourth component, and sampling factors of 3 or 4. -/
  | arithmetic | extended | losslessJpeg | hierarchical | fourComponents | sampling
  /-- PNG's interlace, PLTE and tRNS, frames of an APNG after the first, and its colour chunks. -/
  | interlace | palette | transparency | laterFrames | colourChunks
  /-- Of a video stream: a profile, level or chroma format outside the table, another start, the Annex B length-delimited
  format of AV1. -/
  | otherProfile | otherLevel | otherChroma | otherStart | lengthDelimited
  /-- AV1's film grain and large-scale tiles; HEVC's range extensions, screen content coding and upper layers; field
  pictures; H.264's MBAFF, SVC and MVC. -/
  | filmGrain | largeScaleTile | rangeExtension | screenContent | upperLayer | fieldPicture | mbaff | svc | mvc
  /-- Of an audio stream: Ogg encapsulation, a channel mapping family outside 0 and 1, RF64, a compressed format tag,
  WAVE_FORMAT_EXTENSIBLE, the bext chunk. -/
  | ogg | otherMapping | rf64 | compressedTag | extensible | bext
  deriving DecidableEq, Repr

/-- Whether a sample has a bitstream or container error. -/
opaque mediaCorrupt (kind : Nat) (data : List (BitVec 8)) : Bool

/-- The features, among those that Table 9.2 names, that a sample uses. -/
opaque mediaUses (kind : Nat) (data : List (BitVec 8)) : List Feature

/-- Whether the picture size changes within a video sample. -/
opaque mediaResized (kind : Nat) (data : List (BitVec 8)) : Bool

/-- The byte offset of the error. -/
opaque mediaErrorAt (kind : Nat) (data : List (BitVec 8)) : BitVec 64

/-- Width in pixels. -/
opaque mediaWidth (kind : Nat) (data : List (BitVec 8)) : BitVec 32

/-- Height in pixels. -/
opaque mediaHeight (kind : Nat) (data : List (BitVec 8)) : BitVec 32

/-- Frames in output order. -/
opaque mediaFrames (kind : Nat) (data : List (BitVec 8)) : BitVec 32

/-- Bits of a component. -/
opaque mediaBits (kind : Nat) (data : List (BitVec 8)) : BitVec 5

/-- Bit 0: the components are YCbCr; bit 1: one grey component; bit 2: there is an alpha component. -/
opaque mediaLayout (kind : Nat) (data : List (BitVec 8)) : BitVec 3

/-- The sample's own colour signalling: bit 0 present, [2:1] matrix, [3] full range, [5:4] transfer (as IN.COLOUR). -/
opaque mediaSignal (kind : Nat) (data : List (BitVec 8)) : BitVec 6

/-- A component of a decoded pixel: frame, row, column, component (3 is alpha). -/
opaque mediaPixel (kind : Nat) (data : List (BitVec 8)) (frame y x c : Nat) : BitVec 16

/-- Sample rate of a FLAC or WAV stream in Hz. -/
opaque audioRate (kind : Nat) (data : List (BitVec 8)) : BitVec 32

/-- Channels of an audio stream. -/
opaque audioChannels (kind : Nat) (data : List (BitVec 8)) : BitVec 8

/-- Samples of each channel. -/
opaque audioLength (kind : Nat) (data : List (BitVec 8)) : BitVec 32

/-- Bits of an integer PCM sample; 0 when the samples are binary32 values. -/
opaque audioBits (kind : Nat) (data : List (BitVec 8)) : BitVec 6

/-- A decoded audio sample: an integer of `audioBits` bits in two's complement (8-bit ones unsigned), or a binary32
code. -/
opaque audioSample (kind : Nat) (data : List (BitVec 8)) (i channel : Nat) : BitVec 32

/-- The EOTF of ST 2084 on a binary32 in [0, 1], in cd/m² (R258). -/
opaque pqEotf (x : BitVec 32) : BitVec 32

/-- The inverse OETF of BT.2100 HLG on a binary32 in [0, 1] (R258). -/
opaque hlgInverse (x : BitVec 32) : BitVec 32

/-- What a decoded sample leaves in its staging slot: the layout there is not stated (R264; log 52). -/
opaque stagingByte (draw i : Nat) : BitVec 8

/-- Whether a module of the fabric is a hot spare by its Playbill, and its grade: nothing tells a warden (R349; log 74). -/
opaque moduleSpare (addr : BitVec 16) : Bool

/-- The grade of a module of the fabric (R349; log 74). -/
opaque moduleGrade (addr : BitVec 16) : BitVec 1

/-- The SHA-384 of a text, as the integer that its 48 bytes spell lowest first (R371, R398; log 34). -/
opaque sha384 (text : List (BitVec 8)) : BitVec 384

/-- Whether an ECDSA P-384 signature (r, s) over the SHA-384 of a text verifies under a public key (R371, R398; log
34). -/
opaque ecdsaOk (key text r s : List (BitVec 8)) : Bool

/-- Whether the image in a firmware bank, as its bytes that are not erased, verifies against the Oxvas key hash (R370;
log 34). -/
opaque firmwareOk (image : List (Nat × BitVec 8)) (hash : List (BitVec 8)) : Bool

/-- The version of the image in a firmware bank (R370; log 34). -/
opaque firmwareVersion (image : List (Nat × BitVec 8)) : BitVec 32

/-- Whether bank B is booted when both banks verify with equal versions: not stated (R370; log 92). -/
opaque firmwareTie : Bool

/-- Which of the failure codes of Table 13.5 that apply to a slot is recorded (R374; log 93). -/
opaque playbillPick (codes : List Nat) : Nat

/-- The code of Table 13.5, less 1, for a reserved byte of the header or the signature block that is not zero (R371; log
93). -/
opaque playbillReserved : BitVec 3

/-- Which row of Table 0.5 is the status of a DEVICE event, by its kind: not stated (Table 13.7; log 8). -/
opaque deviceStatus (kind : Nat) : BitVec 5

/-- What the coolant sensors report: 0 inlet, 1 outlet, at a tick (R386; log 94). -/
opaque coolant (sensor tick : Nat) : BitVec 16

/-- The TYPE, STATUS and bytes 24 to 31 of the black-box entry of a SUBMIT (0), an unlock (1) or a lock (2): not stated
(R398, Table 12.8; log 95). -/
opaque lockEntry (kind : Nat) : BitVec 80

/-- The answer to a PLDM base request, and the part number and manufacturing date of the FRU data (R394; log 96). -/
opaque pldmBase : List (BitVec 8)

/-- The part number of the FRU data (R394; log 96). -/
opaque fruPart : List (BitVec 8)

/-- The manufacturing date of the FRU data (R394; log 96). -/
opaque fruDate : List (BitVec 8)

/-- The answer to a request for a sensor that Table 14.6 does not have (R394; log 96). -/
opaque pldmUnknown (sensor : Nat) : List (BitVec 8)

end Sys2Proof.Config
end

