-- ==== Sys2Proof/Machine/Sparse.lean ====
section
/-! DEFINITION. Sparse maps: lists of (key, value) with keys strictly rising. A memory is a sparse map that
lists no entry equal to what an unlisted key reads as, so that equal memories are equal lists. -/

namespace Sys2Proof.Machine

/-- The value at a key; `d` for an unlisted one. -/
def Sparse.get {β : Type} (d : β) : List (Nat × β) → Nat → β
  | [], _ => d
  | (j, v) :: m, k => if j = k then v else if k < j then d else Sparse.get d m k

/-- The value at a key, if listed. -/
def Sparse.get? {β : Type} : List (Nat × β) → Nat → Option β
  | [], _ => none
  | (j, v) :: m, k => if j = k then some v else if k < j then none else Sparse.get? m k

/-- Lists a value at a key in rising order. -/
def Sparse.put {β : Type} : List (Nat × β) → Nat → β → List (Nat × β)
  | [], k, v => [(k, v)]
  | (j, u) :: m, k, v =>
    if k < j then (k, v) :: (j, u) :: m
    else if k = j then (k, v) :: m
    else (j, u) :: Sparse.put m k v

/-- Takes a key out of the list. -/
def Sparse.del {β : Type} : List (Nat × β) → Nat → List (Nat × β)
  | [], _ => []
  | (j, u) :: m, k => if j = k then m else (j, u) :: Sparse.del m k

/-- Writes a value at a key of a memory whose unlisted keys read as `d`: writing `d` removes the entry. -/
def Sparse.set {β : Type} [DecidableEq β] (d : β) (m : List (Nat × β)) (k : Nat) (v : β) :
    List (Nat × β) :=
  if v = d then Sparse.del m k else Sparse.put m k v

/-- Keys strictly rising from a bound. -/
def Sparse.rising {β : Type} : Option Nat → List (Nat × β) → Bool
  | _, [] => true
  | lo, (j, _) :: m => (match lo with | none => true | some b => decide (b < j)) && Sparse.rising (some j) m

/-- The canonical form of a memory whose unlisted keys read as `d`. -/
def Sparse.wf {β : Type} [DecidableEq β] (d : β) (m : List (Nat × β)) : Bool :=
  Sparse.rising none m && m.all fun p => decide (p.2 ≠ d)

/-- Removes every key of [lo, hi). -/
def Sparse.clear {β : Type} (m : List (Nat × β)) (lo hi : Nat) : List (Nat × β) :=
  m.filter fun p => decide (p.1 < lo) || decide (hi ≤ p.1)

end Sys2Proof.Machine
end

