-- ==== Sys2Proof/Machine/Bits.lean ====
section
/-! DEFINITION. Bit fields, byte order and signed readings of numbers (R7, R8: little-endian, bit 0 least
significant), and the two checks the spec names, CRC-32C (R97) and CRC-32 (ISO 3309, R360). -/

namespace Sys2Proof.Machine

/-- Bits [lo + w - 1 : lo] of a number. -/
def bits (x lo w : Nat) : Nat := (x >>> lo) % 2 ^ w

/-- A number with bits [lo + w - 1 : lo] replaced by `v`. -/
def putBits (x lo w v : Nat) : Nat :=
  x - ((x >>> lo) % 2 ^ w) <<< lo + (v % 2 ^ w) <<< lo

/-- Bit `i` of a number as a truth value. -/
def bit (x i : Nat) : Bool := x.testBit i

/-- 1 for true. -/
def b2n (b : Bool) : Nat := if b then 1 else 0

/-- A `w`-bit field read as two's complement. -/
def toSigned (w v : Nat) : Int :=
  if 2 * (v % 2 ^ w) < 2 ^ w then ((v % 2 ^ w : Nat) : Int) else ((v % 2 ^ w : Nat) : Int) - ((2 ^ w : Nat) : Int)

/-- The two's complement `w`-bit code of an integer. -/
def ofSigned (w : Nat) (i : Int) : Nat := (i % ((2 ^ w : Nat) : Int)).toNat

/-- The `n` bytes of a number, lowest first. -/
def leBytes : Nat → Nat → Bytes
  | 0, _ => []
  | n + 1, v => BitVec.ofNat 8 v :: leBytes n (v / 256)

/-- The number that bytes spell, lowest first. -/
def ofLe : Bytes → Nat
  | [] => 0
  | b :: bs => b.toNat + 256 * ofLe bs

/-- `n` bytes at offset `o` of a string, zero past its end. -/
def bytesAt (bs : Bytes) (o n : Nat) : Bytes :=
  let t := (bs.drop o).take n
  t ++ List.replicate (n - t.length) 0#8

/-- The `n`-byte number at offset `o` of a string. -/
def fieldAt (bs : Bytes) (o n : Nat) : Nat := ofLe (bytesAt bs o n)

/-- One byte into a reflected CRC register. -/
def crcByte (poly : Nat) (crc : Nat) (b : Byte) : Nat :=
  (List.range 8).foldl (fun c _ => if c % 2 = 1 then (c / 2) ^^^ poly else c / 2) (crc ^^^ b.toNat)

/-- CRC-32C (polynomial 0x1EDC6F41, reflected; R97, R278). -/
def crc32c (bs : Bytes) : Nat := (bs.foldl (crcByte 0x82F63B78) 0xFFFFFFFF) ^^^ 0xFFFFFFFF

/-- Pads a string with zero bytes to a length, and cuts it there. -/
def padTo (n : Nat) (bs : Bytes) : Bytes := bytesAt bs 0 n

/-- The elements of a list with their places. -/
def indexed {α : Type} : Nat → List α → List (Nat × α)
  | _, [] => []
  | i, a :: as => (i, a) :: indexed (i + 1) as

/-- Cuts a list into pieces of `n`. The first argument bounds the number of pieces. -/
def chunks {α : Type} : Nat → Nat → List α → List (List α)
  | 0, _, _ => []
  | f + 1, n, l => match l with
    | [] => []
    | a :: as => (a :: as).take n :: chunks f n ((a :: as).drop n)

end Sys2Proof.Machine
end

