-- ==== Sys2Proof/Machine/RegMap.lean ====
section
/-! DEFINITION. The register map: every register of the BAR0 tables, its offset, its fields, their access
types and reset values, transcribed from the register tables of the spec (Tables 1.7, 1.8, 2.7, 3.10, 4.9,
5.14, 6.7, 6.8, 7.8, 7.9, 8.11, 8.12, 9.11-9.13, 10.7-10.9, 11.12, 11.13, 12.10, 12.11, 13.10, 14.10).
A register is named by a key: its BAR0 offset, or, for a register that exists once per queue or once per
function behind one offset (R248, R249, R274), a bank key at or above 2^32. -/

namespace Sys2Proof.Machine

/-- The access types of Table 0.4. -/
inductive Access where
  | ro | rw | w1c | wo | rc
  deriving DecidableEq, Repr

/-- A place in a register: its low bit and its width. -/
structure Fld where
  lo : Nat
  w : Nat
  deriving DecidableEq, Repr

/-- A field of a register table: its place, access type, reset value (zero where the table says fused,
strap, random or Playbill), whether the Playbill sets it, and the ranges of values a write may set (none:
any value). -/
structure FieldDef where
  fld : Fld
  access : Access
  reset : Nat
  playbill : Bool
  ranges : List (Nat × Nat)
  deriving DecidableEq, Repr

/-- A register of the map: the key of its first copy, the stride and number of copies along each index, its
size in bytes and its fields other than the reserved ones. -/
structure RegDef where
  base : Nat
  dims : List (Nat × Nat)
  bytes : Nat
  fields : List FieldDef
  deriving DecidableEq, Repr

/-- TOP.STATE (Table 1.7). -/
def Reg.topState : Nat := 0x0
/-- TOP.SCRATCH (Table 1.7). -/
def Reg.topScratch : Nat := 0x8
/-- CAP.ID (Table 1.8). -/
def Reg.capId : Nat := 0x1000
/-- CAP.CORES (Table 1.8). -/
def Reg.capCores : Nat := 0x1004
/-- CAP.CORE_EN (Table 1.8). -/
def Reg.capCoreEn (k : Nat) : Nat := 0x1010 + k * 0x4
/-- CAP.CORE_EN6 (Table 1.8). -/
def Reg.capCoreEn6 : Nat := 0x1028
/-- CAP.CORE_SP (Table 1.8). -/
def Reg.capCoreSp (k : Nat) : Nat := 0x1030 + k * 0x4
/-- CAP.CORE_SP6 (Table 1.8). -/
def Reg.capCoreSp6 : Nat := 0x1048
/-- CAP.MEDIA (Table 1.8). -/
def Reg.capMedia : Nat := 0x1050
/-- CAP.FAR (Table 1.8). -/
def Reg.capFar : Nat := 0x1054
/-- CAP.FABRIC (Table 1.8). -/
def Reg.capFabric : Nat := 0x1058
/-- NUM.FPCTL (Table 2.7). -/
def Reg.numFpctl (core : Nat) : Nat := 0x1004000 + core * 0x10000
/-- NUM.FLAGS (Table 2.7). -/
def Reg.numFlags (core : Nat) : Nat := 0x1004008 + core * 0x10000
/-- NUM.TILE_NAN (Table 2.7). -/
def Reg.numTileNan (core : Nat) : Nat := 0x1004010 + core * 0x10000
/-- NUM.HIST (Table 2.7). -/
def Reg.numHist (core : Nat) (s : Nat) (b : Nat) : Nat := 0x1004100 + core * 0x10000 + s * 0x100 + b * 0x4
/-- MX.CTL (Table 3.10). -/
def Reg.mxCtl (core : Nat) : Nat := 0x1003000 + core * 0x10000
/-- MX.STATUS (Table 3.10). -/
def Reg.mxStatus (core : Nat) : Nat := 0x1003008 + core * 0x10000
/-- MX.FAULT (Table 3.10). -/
def Reg.mxFault (core : Nat) : Nat := 0x1003010 + core * 0x10000
/-- MX.XPFAULT (Table 3.10). -/
def Reg.mxXpfault (core : Nat) : Nat := 0x1003018 + core * 0x10000
/-- MX.XPPOS (Table 3.10). -/
def Reg.mxXppos (core : Nat) : Nat := 0x1003020 + core * 0x10000
/-- MX.CNT (Table 3.10). -/
def Reg.mxCnt (core : Nat) (e : Nat) (i : Nat) : Nat := 0x1003100 + core * 0x10000 + e * 0x40 + i * 0x8
/-- MX.ACD0 (Table 3.10). -/
def Reg.mxAcd0 (core : Nat) (n : Nat) : Nat := 0x1003200 + core * 0x10000 + n * 0x10
/-- MX.ACD1 (Table 3.10). -/
def Reg.mxAcd1 (core : Nat) (n : Nat) : Nat := 0x1003208 + core * 0x10000 + n * 0x10
/-- MX.XPQ (Table 3.10). -/
def Reg.mxXpq (core : Nat) (x : Nat) : Nat := 0x1003600 + core * 0x10000 + x * 0x8
/-- VX.STATUS (Table 4.9). -/
def Reg.vxStatus (core : Nat) : Nat := 0x1005000 + core * 0x10000
/-- VX.FAULT (Table 4.9). -/
def Reg.vxFault (core : Nat) : Nat := 0x1005008 + core * 0x10000
/-- VX.ADDR (Table 4.9). -/
def Reg.vxAddr (core : Nat) : Nat := 0x1005010 + core * 0x10000
/-- VX.MASK (Table 4.9). -/
def Reg.vxMask (core : Nat) (m : Nat) : Nat := 0x1005100 + core * 0x10000 + m * 0x10
/-- VX.MASK_HI (Table 4.9). -/
def Reg.vxMaskHi (core : Nat) (m : Nat) : Nat := 0x1005108 + core * 0x10000 + m * 0x10
/-- ROW.STATUS (Table 4.9). -/
def Reg.rowStatus (core : Nat) : Nat := 0x1006000 + core * 0x10000
/-- ROW.SIDE_IDX (Table 4.9). -/
def Reg.rowSideIdx (core : Nat) : Nat := 0x1006008 + core * 0x10000
/-- ROW.SIDE_DATA (Table 4.9). -/
def Reg.rowSideData (core : Nat) : Nat := 0x1006010 + core * 0x10000
/-- ROW.FAULT (Table 4.9). -/
def Reg.rowFault (core : Nat) : Nat := 0x1006018 + core * 0x10000
/-- CV.STATUS (Table 4.9). -/
def Reg.cvStatus (core : Nat) : Nat := 0x1007000 + core * 0x10000
/-- CV.POS (Table 4.9). -/
def Reg.cvPos (core : Nat) (e : Nat) : Nat := 0x1007008 + core * 0x10000 + e * 0x8
/-- VX.VREG (Table 4.9). -/
def Reg.vxVreg (core : Nat) (r : Nat) (j : Nat) : Nat := 0x1008000 + core * 0x10000 + r * 0x200 + j * 0x8
/-- SEQ.STATUS (Table 5.14). -/
def Reg.seqStatus (core : Nat) (ctx : Nat) : Nat := 0x1002000 + core * 0x10000 + ctx * 0x800
/-- SEQ.OFFSET (Table 5.14). -/
def Reg.seqOffset (core : Nat) (ctx : Nat) : Nat := 0x1002008 + core * 0x10000 + ctx * 0x800
/-- SEQ.FAULT (Table 5.14). -/
def Reg.seqFault (core : Nat) (ctx : Nat) : Nat := 0x1002010 + core * 0x10000 + ctx * 0x800
/-- SEQ.FAULTPOS (Table 5.14). -/
def Reg.seqFaultpos (core : Nat) (ctx : Nat) : Nat := 0x1002018 + core * 0x10000 + ctx * 0x800
/-- SEQ.SYNCPOS (Table 5.14). -/
def Reg.seqSyncpos (core : Nat) (ctx : Nat) : Nat := 0x1002020 + core * 0x10000 + ctx * 0x800
/-- SEQ.STEP (Table 5.14). -/
def Reg.seqStep (core : Nat) (ctx : Nat) : Nat := 0x1002028 + core * 0x10000 + ctx * 0x800
/-- SEQ.PRED (Table 5.14). -/
def Reg.seqPred (core : Nat) (ctx : Nat) : Nat := 0x1002030 + core * 0x10000 + ctx * 0x800
/-- SEQ.LOOP (Table 5.14). -/
def Reg.seqLoop (core : Nat) (ctx : Nat) (d : Nat) : Nat := 0x1002038 + core * 0x10000 + ctx * 0x800 + d * 0x8
/-- SEQ.SREG (Table 5.14). -/
def Reg.seqSreg (core : Nat) (ctx : Nat) (r : Nat) : Nat := 0x1002100 + core * 0x10000 + ctx * 0x800 + r * 0x8
/-- MEM.CTL (Table 6.7). -/
def Reg.memCtl : Nat := 0xa00000
/-- MEM.STACK_OK (Table 6.7). -/
def Reg.memStackOk : Nat := 0xa00008
/-- MEM.UE (Table 6.7). -/
def Reg.memUe : Nat := 0xa00010
/-- MEM.STK0 (Table 6.7). -/
def Reg.memStk0 (s : Nat) : Nat := 0xa00100 + s * 0x10
/-- MEM.STK1 (Table 6.7). -/
def Reg.memStk1 (s : Nat) : Nat := 0xa00108 + s * 0x10
/-- MEM.WIN (Table 6.7). -/
def Reg.memWin (a : Nat) (w : Nat) : Nat := 0xa00400 + (a - 1) * 0x40 + w * 0x8
/-- MEM.DBW (Table 6.7). -/
def Reg.memDbw (a : Nat) : Nat := 0xa00600 + (a - 1) * 0x8
/-- MEM.DB (Table 6.7). -/
def Reg.memDb (d : Nat) : Nat := 0xa00700 + d * 0x8
/-- FAR.STATUS (Table 6.8). -/
def Reg.farStatus (p : Nat) : Nat := 0xa80000 + p * 0x100
/-- FAR.CAP (Table 6.8). -/
def Reg.farCap (p : Nat) : Nat := 0xa80008 + p * 0x100
/-- FAR.ERR (Table 6.8). -/
def Reg.farErr (p : Nat) : Nat := 0xa80010 + p * 0x100
/-- FAR.OUTST (Table 6.8). -/
def Reg.farOutst (p : Nat) : Nat := 0xa80018 + p * 0x100
/-- FAR.WIN (Table 6.8). -/
def Reg.farWin (p : Nat) (a : Nat) : Nat := 0xa80020 + p * 0x100 + (a - 1) * 0x8
/-- SCK.NOW (Table 7.8). -/
def Reg.sckNow : Nat := 0x300000
/-- SCK.CTL (Table 7.8). -/
def Reg.sckCtl : Nat := 0x300008
/-- SCK.STATUS (Table 7.8). -/
def Reg.sckStatus : Nat := 0x300010
/-- SCK.ERROR (Table 7.8). -/
def Reg.sckError : Nat := 0x300018
/-- SCK.TOD (Table 7.8). -/
def Reg.sckTod : Nat := 0x300020
/-- SCK.PTP_NS (Table 7.8). -/
def Reg.sckPtpNs : Nat := 0x300028
/-- SCK.PTP_AT (Table 7.8). -/
def Reg.sckPtpAt : Nat := 0x300030
/-- SCK.PTP_OFFSET (Table 7.8). -/
def Reg.sckPtpOffset : Nat := 0x300038
/-- SCK.HEADLINE (Table 7.8). -/
def Reg.sckHeadline : Nat := 0x300100
/-- SCK.SS_CTL (Table 7.8). -/
def Reg.sckSsCtl : Nat := 0x300108
/-- SCK.SHARE_WIN (Table 7.8). -/
def Reg.sckShareWin : Nat := 0x300110
/-- SCK.ACT (Table 7.8). -/
def Reg.sckAct (a : Nat) : Nat := 0x300200 + a * 0x100
/-- SCK.SEM_CAUSE (Table 7.8). -/
def Reg.sckSemCause (a : Nat) (hi : Nat) : Nat := 0x300208 + a * 0x100 + hi * 0x8
/-- SCK.PHASE (Table 7.8). -/
def Reg.sckPhase (a : Nat) : Nat := 0x300218 + a * 0x100
/-- SCK.PHASE_START (Table 7.8). -/
def Reg.sckPhaseStart (a : Nat) : Nat := 0x300220 + a * 0x100
/-- SCK.PHASE_TICKS (Table 7.8). -/
def Reg.sckPhaseTicks (a : Nat) (i : Nat) : Nat := 0x300228 + a * 0x100 + i * 0x8
/-- SCK.IDLE (Table 7.8). -/
def Reg.sckIdle (a : Nat) (c : Nat) : Nat := 0x300260 + a * 0x100 + c * 0x8
/-- SCK.SHARE (Table 7.8). -/
def Reg.sckShare (a : Nat) : Nat := 0x3002a0 + a * 0x100
/-- SCK.PREEMPT (Table 7.8). -/
def Reg.sckPreempt (a : Nat) : Nat := 0x3002a8 + a * 0x100
/-- CUE.FIRE_AT (Table 7.9). -/
def Reg.cueFireAt (e : Nat) : Nat := 0x308000 + e * 0x20
/-- CUE.CTL (Table 7.9). -/
def Reg.cueCtl (e : Nat) : Nat := 0x308008 + e * 0x20
/-- CUE.PERIOD (Table 7.9). -/
def Reg.cuePeriod (e : Nat) : Nat := 0x308010 + e * 0x20
/-- CUE.ARG (Table 7.9). -/
def Reg.cueArg (e : Nat) : Nat := 0x308018 + e * 0x20
/-- QM.QSEL (Table 8.11). -/
def Reg.qmQsel (fn : Nat) : Nat := 0x400000000 + fn * 0x100
/-- QM.Q_CFG (Table 8.11). -/
def Reg.qmQCfg (q : Nat) : Nat := 0x100000008 + q * 0x10000
/-- QM.Q_BASE (Table 8.11). -/
def Reg.qmQBase (q : Nat) : Nat := 0x100000010 + q * 0x10000
/-- QM.Q_SHADOW (Table 8.11). -/
def Reg.qmQShadow (q : Nat) : Nat := 0x100000018 + q * 0x10000
/-- QM.Q_PTR (Table 8.11). -/
def Reg.qmQPtr (q : Nat) : Nat := 0x100000020 + q * 0x10000
/-- QM.Q_STATE (Table 8.11). -/
def Reg.qmQState (q : Nat) : Nat := 0x100000028 + q * 0x10000
/-- QM.Q_CTL (Table 8.11). -/
def Reg.qmQCtl (q : Nat) : Nat := 0x100000030 + q * 0x10000
/-- QM.Q_RUNCNT (Table 8.11). -/
def Reg.qmQRuncnt (q : Nat) : Nat := 0x100000038 + q * 0x10000
/-- QM.Q_PEER (Table 8.11). -/
def Reg.qmQPeer (q : Nat) : Nat := 0x100000040 + q * 0x10000
/-- QM.Q_DATA (Table 8.11). -/
def Reg.qmQData (q : Nat) : Nat := 0x100000048 + q * 0x10000
/-- QM.Q_DATA_SIZE (Table 8.11). -/
def Reg.qmQDataSize (q : Nat) : Nat := 0x100000050 + q * 0x10000
/-- QM.APERTURE (Table 8.11). -/
def Reg.qmAperture (fn : Nat) : Nat := 0x400000060 + fn * 0x100
/-- QM.ACT_RANGE (Table 8.11). -/
def Reg.qmActRange (a : Nat) (r : Nat) : Nat := 0x401000 + a * 0x40 + r * 0x8
/-- QM.ACT_SEED (Table 8.11). -/
def Reg.qmActSeed (a : Nat) : Nat := 0x401020 + a * 0x40
/-- QM.ACT_EVQ (Table 8.11). -/
def Reg.qmActEvq (a : Nat) : Nat := 0x401028 + a * 0x40
/-- EVT.QSTAT (Table 8.12). -/
def Reg.evtQstat (q : Nat) : Nat := 0x100001000 + q * 0x10000
/-- EVT.MOD (Table 8.12). -/
def Reg.evtMod (q : Nat) : Nat := 0x100001008 + q * 0x10000
/-- EVT.PENDING (Table 8.12). -/
def Reg.evtPending (q : Nat) : Nat := 0x100001010 + q * 0x10000
/-- EVT.SEQ (Table 8.12). -/
def Reg.evtSeq (q : Nat) : Nat := 0x100001018 + q * 0x10000
/-- EVT.TEST (Table 8.12). -/
def Reg.evtTest : Nat := 0x500100
/-- IN.SEQ (Table 9.11). -/
def Reg.inSeq (q : Nat) : Nat := 0x100002000 + q * 0x10000
/-- IN.OUT (Table 9.11). -/
def Reg.inOut (q : Nat) : Nat := 0x100002008 + q * 0x10000
/-- IN.TENSOR (Table 9.11). -/
def Reg.inTensor (q : Nat) : Nat := 0x100002010 + q * 0x10000
/-- IN.BATCH_BASE (Table 9.11). -/
def Reg.inBatchBase (q : Nat) : Nat := 0x100002018 + q * 0x10000
/-- IN.BATCH_CFG (Table 9.11). -/
def Reg.inBatchCfg (q : Nat) : Nat := 0x100002020 + q * 0x10000
/-- IN.STAGE_BASE (Table 9.11). -/
def Reg.inStageBase (q : Nat) : Nat := 0x100002028 + q * 0x10000
/-- IN.WIN (Table 9.11). -/
def Reg.inWin (q : Nat) : Nat := 0x100002030 + q * 0x10000
/-- IN.SEMS (Table 9.11). -/
def Reg.inSems (q : Nat) : Nat := 0x100002038 + q * 0x10000
/-- IN.BUDGET (Table 9.11). -/
def Reg.inBudget (q : Nat) : Nat := 0x100002040 + q * 0x10000
/-- IN.STALE (Table 9.11). -/
def Reg.inStale (q : Nat) : Nat := 0x100002048 + q * 0x10000
/-- IN.COLOUR (Table 9.11). -/
def Reg.inColour (q : Nat) : Nat := 0x100002050 + q * 0x10000
/-- IN.AUDIO (Table 9.11). -/
def Reg.inAudio (q : Nat) : Nat := 0x100002058 + q * 0x10000
/-- IN.MEAN (Table 9.11). -/
def Reg.inMean (q : Nat) (c : Nat) : Nat := 0x100002060 + q * 0x10000 + c * 0x8
/-- IN.SCALE (Table 9.11). -/
def Reg.inScale (q : Nat) (c : Nat) : Nat := 0x100002080 + q * 0x10000 + c * 0x8
/-- IN.STATUS (Table 9.11). -/
def Reg.inStatus (q : Nat) : Nat := 0x100002100 + q * 0x10000
/-- IN.BATCH (Table 9.11). -/
def Reg.inBatch (q : Nat) : Nat := 0x100002108 + q * 0x10000
/-- IN.VOIDS (Table 9.11). -/
def Reg.inVoids (q : Nat) : Nat := 0x100002110 + q * 0x10000
/-- IN.HEAD_WAIT (Table 9.11). -/
def Reg.inHeadWait (q : Nat) : Nat := 0x100002118 + q * 0x10000
/-- IN.TIMING (Table 9.11). -/
def Reg.inTiming (q : Nat) : Nat := 0x100002120 + q * 0x10000
/-- MD.STATUS (Table 9.12). -/
def Reg.mdStatus (m : Nat) : Nat := 0x604000 + m * 0x1000
/-- MD.IMG_PIXELS (Table 9.12). -/
def Reg.mdImgPixels (m : Nat) : Nat := 0x604008 + m * 0x1000
/-- MD.VID_PIXELS (Table 9.12). -/
def Reg.mdVidPixels (m : Nat) (b : Nat) : Nat := 0x604010 + m * 0x1000 + b * 0x8
/-- MD.AUD_SAMPLES (Table 9.12). -/
def Reg.mdAudSamples (m : Nat) : Nat := 0x604020 + m * 0x1000
/-- MD.ERR (Table 9.12). -/
def Reg.mdErr (m : Nat) : Nat := 0x604028 + m * 0x1000
/-- TOK.STATUS (Table 9.12). -/
def Reg.tokStatus (m : Nat) : Nat := 0x608000 + m * 0x1000
/-- TOK.BYTES (Table 9.12). -/
def Reg.tokBytes (m : Nat) : Nat := 0x608008 + m * 0x1000
/-- TOK.TOKENS (Table 9.12). -/
def Reg.tokTokens (m : Nat) : Nat := 0x608010 + m * 0x1000
/-- TS.SLOT (Table 9.13). -/
def Reg.tsSlot (n : Nat) : Nat := 0x700000 + n * 0x20
/-- TS.REFS (Table 9.13). -/
def Reg.tsRefs (n : Nat) : Nat := 0x700008 + n * 0x20
/-- TS.SIZE (Table 9.13). -/
def Reg.tsSize (n : Nat) : Nat := 0x700010 + n * 0x20
/-- CAR.STATUS (Table 10.7). -/
def Reg.carStatus (m : Nat) : Nat := 0x800000 + m * 0x20000
/-- CAR.BLOCKS_TX (Table 10.7). -/
def Reg.carBlocksTx (m : Nat) : Nat := 0x800008 + m * 0x20000
/-- CAR.BLOCKS_RX (Table 10.7). -/
def Reg.carBlocksRx (m : Nat) : Nat := 0x800010 + m * 0x20000
/-- CAR.RETRY (Table 10.7). -/
def Reg.carRetry (m : Nat) : Nat := 0x800018 + m * 0x20000
/-- CAR.SLOT_SEL (Table 10.7). -/
def Reg.carSlotSel (m : Nat) : Nat := 0x800020 + m * 0x20000
/-- CAR.SLOT (Table 10.7). -/
def Reg.carSlot (m : Nat) : Nat := 0x800028 + m * 0x20000
/-- CAR.BKT_CTL (Table 10.8). -/
def Reg.carBktCtl (a : Nat) : Nat := 0x880000 + a * 0x100
/-- CAR.TABLE (Table 10.8). -/
def Reg.carTable (a : Nat) : Nat := 0x880008 + a * 0x100
/-- CAR.HP (Table 10.8). -/
def Reg.carHp (a : Nat) : Nat := 0x880010 + a * 0x100
/-- CAR.SCRATCH (Table 10.8). -/
def Reg.carScratch (a : Nat) : Nat := 0x880018 + a * 0x100
/-- CAR.SCRATCH_SIZE (Table 10.8). -/
def Reg.carScratchSize (a : Nat) : Nat := 0x880020 + a * 0x100
/-- CAR.PEER_NS (Table 10.8). -/
def Reg.carPeerNs (a : Nat) : Nat := 0x880028 + a * 0x100
/-- CAR.WAIT (Table 10.8). -/
def Reg.carWait (a : Nat) (c : Nat) : Nat := 0x880030 + a * 0x100 + c * 0x8
/-- CAR.POISON (Table 10.8). -/
def Reg.carPoison (a : Nat) : Nat := 0x880040 + a * 0x100
/-- CAR.POISON_POS (Table 10.8). -/
def Reg.carPoisonPos (a : Nat) : Nat := 0x880048 + a * 0x100
/-- OPT.STATUS (Table 10.9). -/
def Reg.optStatus (m : Nat) : Nat := 0x840000 + m * 0x10000
/-- OPT.UPDATED (Table 10.9). -/
def Reg.optUpdated (m : Nat) : Nat := 0x840008 + m * 0x10000
/-- OPT.HELD (Table 10.9). -/
def Reg.optHeld (m : Nat) : Nat := 0x840010 + m * 0x10000
/-- OPT.BUSY_TICKS (Table 10.9). -/
def Reg.optBusyTicks (m : Nat) : Nat := 0x840018 + m * 0x10000
/-- FAB.SELF (Table 11.12). -/
def Reg.fabSelf : Nat := 0x900000
/-- FAB.EXTENT (Table 11.12). -/
def Reg.fabExtent : Nat := 0x900008
/-- FAB.ID (Table 11.12). -/
def Reg.fabId : Nat := 0x900010
/-- FAB.CRYPTO (Table 11.12). -/
def Reg.fabCrypto : Nat := 0x900018
/-- FAB.FAULTS (Table 11.12). -/
def Reg.fabFaults : Nat := 0x900020
/-- FAB.FAULT_SEL (Table 11.12). -/
def Reg.fabFaultSel : Nat := 0x900028
/-- FAB.FAULT (Table 11.12). -/
def Reg.fabFault : Nat := 0x900030
/-- FAB.DROPS (Table 11.12). -/
def Reg.fabDrops : Nat := 0x900040
/-- FAB.REMAP (Table 11.12). -/
def Reg.fabRemap (r : Nat) : Nat := 0x900100 + r * 0x8
/-- LNK.STATUS (Table 11.13). -/
def Reg.lnkStatus (p : Nat) : Nat := 0x980000 + p * 0x1000
/-- LNK.CTL (Table 11.13). -/
def Reg.lnkCtl (p : Nat) : Nat := 0x980008 + p * 0x1000
/-- LNK.CREDIT_NS (Table 11.13). -/
def Reg.lnkCreditNs (p : Nat) : Nat := 0x980010 + p * 0x1000
/-- LNK.PARTNER_SERIAL (Table 11.13). -/
def Reg.lnkPartnerSerial (p : Nat) : Nat := 0x980018 + p * 0x1000
/-- LNK.FEC (Table 11.13). -/
def Reg.lnkFec (p : Nat) : Nat := 0x980020 + p * 0x1000
/-- LNK.RETRY (Table 11.13). -/
def Reg.lnkRetry (p : Nat) : Nat := 0x980028 + p * 0x1000
/-- LNK.HOSTILE (Table 11.13). -/
def Reg.lnkHostile (p : Nat) : Nat := 0x980030 + p * 0x1000
/-- LNK.TIME (Table 11.13). -/
def Reg.lnkTime (p : Nat) : Nat := 0x980038 + p * 0x1000
/-- LNK.VC (Table 11.13). -/
def Reg.lnkVc (p : Nat) (v : Nat) : Nat := 0x980040 + p * 0x1000 + v * 0x8
/-- LNK.BYTES_TX (Table 11.13). -/
def Reg.lnkBytesTx (p : Nat) : Nat := 0x980060 + p * 0x1000
/-- LNK.BYTES_RX (Table 11.13). -/
def Reg.lnkBytesRx (p : Nat) : Nat := 0x980068 + p * 0x1000
/-- LNK.DEGRADES (Table 11.13). -/
def Reg.lnkDegrades (p : Nat) : Nat := 0x980070 + p * 0x1000
/-- NET.CTL (Table 12.10). -/
def Reg.netCtl : Nat := 0xb00000
/-- NET.STATUS (Table 12.10). -/
def Reg.netStatus : Nat := 0xb00008
/-- NET.HB (Table 12.10). -/
def Reg.netHb : Nat := 0xb00010
/-- NET.WARDEN (Table 12.10). -/
def Reg.netWarden : Nat := 0xb00018
/-- NET.CKPT (Table 12.10). -/
def Reg.netCkpt : Nat := 0xb00020
/-- NET.AREA (Table 12.10). -/
def Reg.netArea (i : Nat) : Nat := 0xb00028 + i * 0x8
/-- NET.ROLLBACK (Table 12.10). -/
def Reg.netRollback : Nat := 0xb00048
/-- NET.CKPT_REGION (Table 12.10). -/
def Reg.netCkptRegion (j : Nat) : Nat := 0xb00050 + j * 0x8
/-- NET.CORE (Table 12.10). -/
def Reg.netCore (n : Nat) : Nat := 0xb00100 + n * 0x8
/-- NET.CORE_CMD (Table 12.10). -/
def Reg.netCoreCmd : Nat := 0xb00800
/-- NET.RAIL (Table 12.10). -/
def Reg.netRail (r : Nat) : Nat := 0xb00900 + r * 0x8
/-- NET.TEMP (Table 12.10). -/
def Reg.netTemp (t : Nat) : Nat := 0xb00980 + t * 0x8
/-- BBX.CTL (Table 12.11). -/
def Reg.bbxCtl : Nat := 0xb80000
/-- BBX.STATUS (Table 12.11). -/
def Reg.bbxStatus : Nat := 0xb80008
/-- BBX.FREEZE_AT (Table 12.11). -/
def Reg.bbxFreezeAt : Nat := 0xb80010
/-- BBX.LOST (Table 12.11). -/
def Reg.bbxLost : Nat := 0xb80018
/-- BBX.FLASH (Table 12.11). -/
def Reg.bbxFlash : Nat := 0xb80020
/-- BBX.FLASH_SEL (Table 12.11). -/
def Reg.bbxFlashSel : Nat := 0xb80028
/-- BBX.FLASH_DATA (Table 12.11). -/
def Reg.bbxFlashData (k : Nat) : Nat := 0xb80040 + k * 0x8
/-- BBX.ENTRY (Table 12.11). -/
def Reg.bbxEntry (i : Nat) (k : Nat) : Nat := 0xb81000 + i * 0x20 + k * 0x8
/-- BOOT.STATUS (Table 13.10). -/
def Reg.bootStatus : Nat := 0x100000
/-- BOOT.FUSE (Table 13.10). -/
def Reg.bootFuse : Nat := 0x100008
/-- BOOT.RESULT (Table 13.10). -/
def Reg.bootResult : Nat := 0x100010
/-- BOOT.TIMES (Table 13.10). -/
def Reg.bootTimes : Nat := 0x100018
/-- BOOT.CTL (Table 13.10). -/
def Reg.bootCtl : Nat := 0x100020
/-- BOOT.FLASH_ADDR (Table 13.10). -/
def Reg.bootFlashAddr : Nat := 0x100100
/-- BOOT.FLASH_CMD (Table 13.10). -/
def Reg.bootFlashCmd : Nat := 0x100108
/-- BOOT.FLASH_BUF (Table 13.10). -/
def Reg.bootFlashBuf (k : Nat) : Nat := 0x100200 + k * 0x8
/-- PWR.STATUS (Table 14.10). -/
def Reg.pwrStatus : Nat := 0x200000
/-- PWR.INPUT (Table 14.10). -/
def Reg.pwrInput : Nat := 0x200008
/-- PWR.POWER (Table 14.10). -/
def Reg.pwrPower : Nat := 0x200010
/-- PWR.CAP (Table 14.10). -/
def Reg.pwrCap : Nat := 0x200018
/-- PWR.ENERGY (Table 14.10). -/
def Reg.pwrEnergy : Nat := 0x200020
/-- PWR.THROTTLED (Table 14.10). -/
def Reg.pwrThrottled : Nat := 0x200028
/-- PWR.COOLANT (Table 14.10). -/
def Reg.pwrCoolant : Nat := 0x200030
/-- MGT.SERIAL (Table 14.10). -/
def Reg.mgtSerial : Nat := 0x204000
/-- MGT.SMB (Table 14.10). -/
def Reg.mgtSmb : Nat := 0x204008
/-- MGT.ERR (Table 14.10). -/
def Reg.mgtErr : Nat := 0x204010
/-- PRB.CHALLENGE (Table 14.10). -/
def Reg.prbChallenge (k : Nat) : Nat := 0x208000 + k * 0x8
/-- PRB.TOKEN (Table 14.10). -/
def Reg.prbToken (k : Nat) : Nat := 0x208100 + k * 0x8
/-- PRB.CMD (Table 14.10). -/
def Reg.prbCmd : Nat := 0x208400
/-- PRB.STATUS (Table 14.10). -/
def Reg.prbStatus : Nat := 0x208408
/-- PRB.EXPIRY (Table 14.10). -/
def Reg.prbExpiry : Nat := 0x208410
/-- PRB.SEL (Table 14.10). -/
def Reg.prbSel (k : Nat) : Nat := 0x208500 + k * 0x8

/-- TOP.STATE.PHASE -/
def Fld.topStatePhase : Fld := ⟨0, 4⟩
/-- TOP.STATE.READY -/
def Fld.topStateReady : Fld := ⟨4, 1⟩
/-- TOP.STATE.XLINK_OK -/
def Fld.topStateXlinkOk : Fld := ⟨5, 1⟩
/-- TOP.SCRATCH.VALUE -/
def Fld.topScratchValue : Fld := ⟨0, 64⟩
/-- CAP.ID.STEPPING -/
def Fld.capIdStepping : Fld := ⟨0, 8⟩
/-- CAP.ID.GRADE -/
def Fld.capIdGrade : Fld := ⟨8, 8⟩
/-- CAP.ID.DEVICE -/
def Fld.capIdDevice : Fld := ⟨16, 16⟩
/-- CAP.CORES.ENABLED -/
def Fld.capCoresEnabled : Fld := ⟨0, 8⟩
/-- CAP.CORES.SPARES -/
def Fld.capCoresSpares : Fld := ⟨8, 8⟩
/-- CAP.CORES.FUSED -/
def Fld.capCoresFused : Fld := ⟨16, 8⟩
/-- CAP.CORE_EN.MAP -/
def Fld.capCoreEnMap : Fld := ⟨0, 32⟩
/-- CAP.CORE_EN6.MAP -/
def Fld.capCoreEn6Map : Fld := ⟨0, 16⟩
/-- CAP.CORE_SP.MAP -/
def Fld.capCoreSpMap : Fld := ⟨0, 32⟩
/-- CAP.CORE_SP6.MAP -/
def Fld.capCoreSp6Map : Fld := ⟨0, 16⟩
/-- CAP.MEDIA.VIDEO -/
def Fld.capMediaVideo : Fld := ⟨0, 4⟩
/-- CAP.FAR.PORTS -/
def Fld.capFarPorts : Fld := ⟨0, 4⟩
/-- CAP.FABRIC.PORTS -/
def Fld.capFabricPorts : Fld := ⟨0, 8⟩
/-- NUM.FPCTL.RDIR -/
def Fld.numFpctlRdir : Fld := ⟨0, 2⟩
/-- NUM.FLAGS.SAT -/
def Fld.numFlagsSat : Fld := ⟨0, 1⟩
/-- NUM.FLAGS.NAN -/
def Fld.numFlagsNan : Fld := ⟨1, 1⟩
/-- NUM.FLAGS.FLUSH -/
def Fld.numFlagsFlush : Fld := ⟨2, 1⟩
/-- NUM.FLAGS.SIDE_OVF -/
def Fld.numFlagsSideOvf : Fld := ⟨3, 1⟩
/-- NUM.FLAGS.POISON -/
def Fld.numFlagsPoison : Fld := ⟨4, 1⟩
/-- NUM.FLAGS.TILE_NUM -/
def Fld.numFlagsTileNum : Fld := ⟨5, 1⟩
/-- NUM.FLAGS.IEEE_NV -/
def Fld.numFlagsIeeeNv : Fld := ⟨8, 1⟩
/-- NUM.FLAGS.IEEE_DZ -/
def Fld.numFlagsIeeeDz : Fld := ⟨9, 1⟩
/-- NUM.FLAGS.IEEE_OF -/
def Fld.numFlagsIeeeOf : Fld := ⟨10, 1⟩
/-- NUM.FLAGS.IEEE_UF -/
def Fld.numFlagsIeeeUf : Fld := ⟨11, 1⟩
/-- NUM.FLAGS.IEEE_NX -/
def Fld.numFlagsIeeeNx : Fld := ⟨12, 1⟩
/-- NUM.TILE_NAN.ROW -/
def Fld.numTileNanRow : Fld := ⟨0, 7⟩
/-- NUM.TILE_NAN.COL -/
def Fld.numTileNanCol : Fld := ⟨8, 7⟩
/-- NUM.TILE_NAN.VALID -/
def Fld.numTileNanValid : Fld := ⟨15, 1⟩
/-- NUM.TILE_NAN.COUNT -/
def Fld.numTileNanCount : Fld := ⟨16, 16⟩
/-- NUM.TILE_NAN.TAG -/
def Fld.numTileNanTag : Fld := ⟨32, 32⟩
/-- NUM.HIST.COUNT -/
def Fld.numHistCount : Fld := ⟨0, 32⟩
/-- MX.CTL.ACC_SPLIT -/
def Fld.mxCtlAccSplit : Fld := ⟨0, 5⟩
/-- MX.CTL.RES_INJECT -/
def Fld.mxCtlResInject : Fld := ⟨8, 1⟩
/-- MX.STATUS.FWD_ACTIVE -/
def Fld.mxStatusFwdActive : Fld := ⟨0, 1⟩
/-- MX.STATUS.BWD_ACTIVE -/
def Fld.mxStatusBwdActive : Fld := ⟨1, 1⟩
/-- MX.STATUS.FWD_LOADING -/
def Fld.mxStatusFwdLoading : Fld := ⟨2, 1⟩
/-- MX.STATUS.BWD_LOADING -/
def Fld.mxStatusBwdLoading : Fld := ⟨3, 1⟩
/-- MX.STATUS.SPLIT_PENDING -/
def Fld.mxStatusSplitPending : Fld := ⟨4, 1⟩
/-- MX.FAULT.VALID -/
def Fld.mxFaultValid : Fld := ⟨0, 1⟩
/-- MX.FAULT.KIND -/
def Fld.mxFaultKind : Fld := ⟨1, 2⟩
/-- MX.FAULT.ENGINE -/
def Fld.mxFaultEngine : Fld := ⟨3, 1⟩
/-- MX.FAULT.ARRAY -/
def Fld.mxFaultArray : Fld := ⟨4, 2⟩
/-- MX.FAULT.COLUMN -/
def Fld.mxFaultColumn : Fld := ⟨6, 7⟩
/-- MX.FAULT.TAP -/
def Fld.mxFaultTap : Fld := ⟨13, 2⟩
/-- MX.FAULT.TAG -/
def Fld.mxFaultTag : Fld := ⟨32, 32⟩
/-- MX.XPFAULT.VALID -/
def Fld.mxXpfaultValid : Fld := ⟨0, 1⟩
/-- MX.XPFAULT.PORT -/
def Fld.mxXpfaultPort : Fld := ⟨1, 2⟩
/-- MX.XPFAULT.STATUS -/
def Fld.mxXpfaultStatus : Fld := ⟨8, 8⟩
/-- MX.XPFAULT.TAG -/
def Fld.mxXpfaultTag : Fld := ⟨32, 32⟩
/-- MX.XPPOS.OFFSET -/
def Fld.mxXpposOffset : Fld := ⟨0, 48⟩
/-- MX.CNT.COUNT -/
def Fld.mxCntCount : Fld := ⟨0, 64⟩
/-- MX.ACD0.BASE -/
def Fld.mxAcd0Base : Fld := ⟨0, 19⟩
/-- MX.ACD0.ENTRIES -/
def Fld.mxAcd0Entries : Fld := ⟨20, 20⟩
/-- MX.ACD0.USES -/
def Fld.mxAcd0Uses : Fld := ⟨48, 16⟩
/-- MX.ACD1.DONE -/
def Fld.mxAcd1Done : Fld := ⟨0, 16⟩
/-- MX.ACD1.COMPLETE -/
def Fld.mxAcd1Complete : Fld := ⟨16, 1⟩
/-- MX.ACD1.POISON -/
def Fld.mxAcd1Poison : Fld := ⟨17, 1⟩
/-- MX.ACD1.TENSOR_ID -/
def Fld.mxAcd1TensorId : Fld := ⟨32, 32⟩
/-- MX.XPQ.LEVEL -/
def Fld.mxXpqLevel : Fld := ⟨0, 14⟩
/-- MX.XPQ.LOW -/
def Fld.mxXpqLow : Fld := ⟨16, 14⟩
/-- VX.STATUS.BUSY -/
def Fld.vxStatusBusy : Fld := ⟨0, 1⟩
/-- VX.STATUS.SORT_BUSY -/
def Fld.vxStatusSortBusy : Fld := ⟨1, 1⟩
/-- VX.FAULT.VALID -/
def Fld.vxFaultValid : Fld := ⟨0, 1⟩
/-- VX.FAULT.LANE -/
def Fld.vxFaultLane : Fld := ⟨1, 7⟩
/-- VX.FAULT.STATUS -/
def Fld.vxFaultStatus : Fld := ⟨8, 8⟩
/-- VX.FAULT.TAG -/
def Fld.vxFaultTag : Fld := ⟨32, 32⟩
/-- VX.ADDR.ADDR -/
def Fld.vxAddrAddr : Fld := ⟨0, 48⟩
/-- VX.MASK.LANES_LO -/
def Fld.vxMaskLanesLo : Fld := ⟨0, 64⟩
/-- VX.MASK_HI.LANES_HI -/
def Fld.vxMaskHiLanesHi : Fld := ⟨0, 64⟩
/-- ROW.STATUS.BUSY -/
def Fld.rowStatusBusy : Fld := ⟨0, 1⟩
/-- ROW.SIDE_IDX.INDEX -/
def Fld.rowSideIdxIndex : Fld := ⟨0, 14⟩
/-- ROW.SIDE_DATA.WORD0 -/
def Fld.rowSideDataWord0 : Fld := ⟨0, 32⟩
/-- ROW.SIDE_DATA.WORD1 -/
def Fld.rowSideDataWord1 : Fld := ⟨32, 32⟩
/-- ROW.FAULT.VALID -/
def Fld.rowFaultValid : Fld := ⟨0, 1⟩
/-- ROW.FAULT.STATUS -/
def Fld.rowFaultStatus : Fld := ⟨8, 8⟩
/-- ROW.FAULT.TAG -/
def Fld.rowFaultTag : Fld := ⟨32, 32⟩
/-- CV.STATUS.FWD_ACTIVE -/
def Fld.cvStatusFwdActive : Fld := ⟨0, 1⟩
/-- CV.STATUS.BWD_ACTIVE -/
def Fld.cvStatusBwdActive : Fld := ⟨1, 1⟩
/-- CV.STATUS.BWD_PORT -/
def Fld.cvStatusBwdPort : Fld := ⟨2, 1⟩
/-- CV.POS.ROW -/
def Fld.cvPosRow : Fld := ⟨0, 48⟩
/-- VX.VREG.LANES -/
def Fld.vxVregLanes : Fld := ⟨0, 64⟩
/-- SEQ.STATUS.BOUND -/
def Fld.seqStatusBound : Fld := ⟨0, 1⟩
/-- SEQ.STATUS.CONTEXT -/
def Fld.seqStatusContext : Fld := ⟨1, 2⟩
/-- SEQ.STATUS.STATE -/
def Fld.seqStatusState : Fld := ⟨8, 4⟩
/-- SEQ.STATUS.LOOP_DEPTH -/
def Fld.seqStatusLoopDepth : Fld := ⟨12, 3⟩
/-- SEQ.OFFSET.OFFSET -/
def Fld.seqOffsetOffset : Fld := ⟨0, 32⟩
/-- SEQ.OFFSET.WORD -/
def Fld.seqOffsetWord : Fld := ⟨32, 32⟩
/-- SEQ.FAULT.VALID -/
def Fld.seqFaultValid : Fld := ⟨0, 1⟩
/-- SEQ.FAULT.SLOT -/
def Fld.seqFaultSlot : Fld := ⟨1, 3⟩
/-- SEQ.FAULT.AT_DECODE -/
def Fld.seqFaultAtDecode : Fld := ⟨4, 1⟩
/-- SEQ.FAULT.STATUS -/
def Fld.seqFaultStatus : Fld := ⟨8, 8⟩
/-- SEQ.FAULT.TAG -/
def Fld.seqFaultTag : Fld := ⟨32, 32⟩
/-- SEQ.FAULTPOS.WORD -/
def Fld.seqFaultposWord : Fld := ⟨0, 32⟩
/-- SEQ.SYNCPOS.OFFSET -/
def Fld.seqSyncposOffset : Fld := ⟨0, 32⟩
/-- SEQ.SYNCPOS.WORD -/
def Fld.seqSyncposWord : Fld := ⟨32, 32⟩
/-- SEQ.STEP.STEP -/
def Fld.seqStepStep : Fld := ⟨0, 32⟩
/-- SEQ.PRED.P -/
def Fld.seqPredP : Fld := ⟨0, 8⟩
/-- SEQ.LOOP.COUNT -/
def Fld.seqLoopCount : Fld := ⟨0, 32⟩
/-- SEQ.LOOP.INDEX -/
def Fld.seqLoopIndex : Fld := ⟨32, 32⟩
/-- SEQ.SREG.VALUE -/
def Fld.seqSregValue : Fld := ⟨0, 64⟩
/-- MEM.CTL.SB_SIDESHOW -/
def Fld.memCtlSbSideshow : Fld := ⟨0, 6⟩
/-- MEM.CTL.SCRUB_HOURS -/
def Fld.memCtlScrubHours : Fld := ⟨8, 8⟩
/-- MEM.STACK_OK.MAP -/
def Fld.memStackOkMap : Fld := ⟨0, 32⟩
/-- MEM.UE.VALID -/
def Fld.memUeValid : Fld := ⟨0, 1⟩
/-- MEM.UE.LEVEL -/
def Fld.memUeLevel : Fld := ⟨1, 2⟩
/-- MEM.UE.UNIT -/
def Fld.memUeUnit : Fld := ⟨3, 5⟩
/-- MEM.UE.ADDR -/
def Fld.memUeAddr : Fld := ⟨16, 43⟩
/-- MEM.STK0.CE_COUNT -/
def Fld.memStk0CeCount : Fld := ⟨0, 32⟩
/-- MEM.STK0.UE_COUNT -/
def Fld.memStk0UeCount : Fld := ⟨32, 16⟩
/-- MEM.STK0.ERASED_DIE -/
def Fld.memStk0ErasedDie : Fld := ⟨48, 5⟩
/-- MEM.STK0.ERASED -/
def Fld.memStk0Erased : Fld := ⟨53, 1⟩
/-- MEM.STK1.OUTSTANDING -/
def Fld.memStk1Outstanding : Fld := ⟨0, 10⟩
/-- MEM.STK1.PEAK -/
def Fld.memStk1Peak : Fld := ⟨16, 10⟩
/-- MEM.WIN.BASE_GIB -/
def Fld.memWinBaseGib : Fld := ⟨0, 13⟩
/-- MEM.WIN.SIZE_GIB -/
def Fld.memWinSizeGib : Fld := ⟨16, 13⟩
/-- MEM.WIN.READ_ONLY -/
def Fld.memWinReadOnly : Fld := ⟨29, 1⟩
/-- MEM.DBW.BASE_MIB -/
def Fld.memDbwBaseMib : Fld := ⟨0, 6⟩
/-- MEM.DBW.SIZE_MIB -/
def Fld.memDbwSizeMib : Fld := ⟨8, 7⟩
/-- MEM.DB.CE_COUNT -/
def Fld.memDbCeCount : Fld := ⟨0, 32⟩
/-- MEM.DB.UE_COUNT -/
def Fld.memDbUeCount : Fld := ⟨32, 16⟩
/-- FAR.STATUS.LINK_UP -/
def Fld.farStatusLinkUp : Fld := ⟨0, 1⟩
/-- FAR.STATUS.DEVICE_OK -/
def Fld.farStatusDeviceOk : Fld := ⟨1, 1⟩
/-- FAR.STATUS.DEGRADED -/
def Fld.farStatusDegraded : Fld := ⟨2, 1⟩
/-- FAR.STATUS.WIDTH -/
def Fld.farStatusWidth : Fld := ⟨8, 8⟩
/-- FAR.CAP.CAP_GIB -/
def Fld.farCapCapGib : Fld := ⟨0, 14⟩
/-- FAR.ERR.POISON_COUNT -/
def Fld.farErrPoisonCount : Fld := ⟨0, 16⟩
/-- FAR.ERR.TIMEOUT_COUNT -/
def Fld.farErrTimeoutCount : Fld := ⟨16, 16⟩
/-- FAR.OUTST.OUTSTANDING -/
def Fld.farOutstOutstanding : Fld := ⟨0, 11⟩
/-- FAR.OUTST.PEAK -/
def Fld.farOutstPeak : Fld := ⟨16, 11⟩
/-- FAR.WIN.BASE_GIB -/
def Fld.farWinBaseGib : Fld := ⟨0, 13⟩
/-- FAR.WIN.SIZE_GIB -/
def Fld.farWinSizeGib : Fld := ⟨16, 13⟩
/-- SCK.NOW.COUNT -/
def Fld.sckNowCount : Fld := ⟨0, 64⟩
/-- SCK.CTL.SOURCE -/
def Fld.sckCtlSource : Fld := ⟨0, 2⟩
/-- SCK.CTL.ROOT -/
def Fld.sckCtlRoot : Fld := ⟨2, 1⟩
/-- SCK.STATUS.LOCKED -/
def Fld.sckStatusLocked : Fld := ⟨0, 1⟩
/-- SCK.STATUS.HOLDOVER -/
def Fld.sckStatusHoldover : Fld := ⟨1, 1⟩
/-- SCK.STATUS.TIME_SET -/
def Fld.sckStatusTimeSet : Fld := ⟨2, 1⟩
/-- SCK.STATUS.SLEWING -/
def Fld.sckStatusSlewing : Fld := ⟨3, 1⟩
/-- SCK.STATUS.PARENT -/
def Fld.sckStatusParent : Fld := ⟨4, 3⟩
/-- SCK.STATUS.PARENT_VALID -/
def Fld.sckStatusParentValid : Fld := ⟨7, 1⟩
/-- SCK.STATUS.HOPS -/
def Fld.sckStatusHops : Fld := ⟨8, 6⟩
/-- SCK.ERROR.PS -/
def Fld.sckErrorPs : Fld := ⟨0, 32⟩
/-- SCK.TOD.SECONDS -/
def Fld.sckTodSeconds : Fld := ⟨0, 64⟩
/-- SCK.PTP_NS.NS -/
def Fld.sckPtpNsNs : Fld := ⟨0, 64⟩
/-- SCK.PTP_AT.TICK -/
def Fld.sckPtpAtTick : Fld := ⟨0, 64⟩
/-- SCK.PTP_OFFSET.OFFSET -/
def Fld.sckPtpOffsetOffset : Fld := ⟨0, 64⟩
/-- SCK.HEADLINE.ACT -/
def Fld.sckHeadlineAct : Fld := ⟨0, 4⟩
/-- SCK.HEADLINE.PENDING -/
def Fld.sckHeadlinePending : Fld := ⟨4, 1⟩
/-- SCK.HEADLINE.REQUESTED -/
def Fld.sckHeadlineRequested : Fld := ⟨8, 4⟩
/-- SCK.SS_CTL.ACC_SS -/
def Fld.sckSsCtlAccSs : Fld := ⟨0, 6⟩
/-- SCK.SS_CTL.SIDE_SS -/
def Fld.sckSsCtlSideSs : Fld := ⟨8, 4⟩
/-- SCK.SS_CTL.PREEMPT_LIMIT -/
def Fld.sckSsCtlPreemptLimit : Fld := ⟨16, 12⟩
/-- SCK.SS_CTL.BUBBLE_ENTRY -/
def Fld.sckSsCtlBubbleEntry : Fld := ⟨32, 16⟩
/-- SCK.SHARE_WIN.WINDOW_US -/
def Fld.sckShareWinWindowUs : Fld := ⟨0, 16⟩
/-- SCK.ACT.ROLE -/
def Fld.sckActRole : Fld := ⟨0, 2⟩
/-- SCK.ACT.ENABLED -/
def Fld.sckActEnabled : Fld := ⟨2, 1⟩
/-- SCK.ACT.MIN_SHARE -/
def Fld.sckActMinShare : Fld := ⟨8, 8⟩
/-- SCK.SEM_CAUSE.CAUSE -/
def Fld.sckSemCauseCause : Fld := ⟨0, 64⟩
/-- SCK.PHASE.PHASE -/
def Fld.sckPhasePhase : Fld := ⟨0, 3⟩
/-- SCK.PHASE_START.STAMP -/
def Fld.sckPhaseStartStamp : Fld := ⟨0, 64⟩
/-- SCK.PHASE_TICKS.TICKS -/
def Fld.sckPhaseTicksTicks : Fld := ⟨0, 64⟩
/-- SCK.IDLE.CYCLES -/
def Fld.sckIdleCycles : Fld := ⟨0, 64⟩
/-- SCK.SHARE.LAST -/
def Fld.sckShareLast : Fld := ⟨0, 16⟩
/-- SCK.SHARE.YIELDED -/
def Fld.sckShareYielded : Fld := ⟨16, 1⟩
/-- SCK.PREEMPT.PREEMPTS -/
def Fld.sckPreemptPreempts : Fld := ⟨0, 32⟩
/-- SCK.PREEMPT.ABORTS -/
def Fld.sckPreemptAborts : Fld := ⟨32, 32⟩
/-- CUE.FIRE_AT.TICK -/
def Fld.cueFireAtTick : Fld := ⟨0, 64⟩
/-- CUE.CTL.ACTION -/
def Fld.cueCtlAction : Fld := ⟨0, 3⟩
/-- CUE.CTL.ENABLE -/
def Fld.cueCtlEnable : Fld := ⟨3, 1⟩
/-- CUE.CTL.ACT -/
def Fld.cueCtlAct : Fld := ⟨4, 4⟩
/-- CUE.CTL.FIRED -/
def Fld.cueCtlFired : Fld := ⟨8, 1⟩
/-- CUE.CTL.FIRE_COUNT -/
def Fld.cueCtlFireCount : Fld := ⟨32, 32⟩
/-- CUE.PERIOD.TICKS -/
def Fld.cuePeriodTicks : Fld := ⟨0, 64⟩
/-- CUE.ARG.ARG -/
def Fld.cueArgArg : Fld := ⟨0, 64⟩
/-- QM.QSEL.QUEUE -/
def Fld.qmQselQueue : Fld := ⟨0, 16⟩
/-- QM.QSEL.VALID -/
def Fld.qmQselValid : Fld := ⟨16, 1⟩
/-- QM.Q_CFG.TYPE -/
def Fld.qmQCfgType : Fld := ⟨0, 3⟩
/-- QM.Q_CFG.SPACE -/
def Fld.qmQCfgSpace : Fld := ⟨3, 1⟩
/-- QM.Q_CFG.LOG2_SIZE -/
def Fld.qmQCfgLog2Size : Fld := ⟨4, 5⟩
/-- QM.Q_CFG.CONTEXT -/
def Fld.qmQCfgContext : Fld := ⟨9, 2⟩
/-- QM.Q_CFG.HOLD_CUE -/
def Fld.qmQCfgHoldCue : Fld := ⟨11, 1⟩
/-- QM.Q_CFG.CMPL_EVT -/
def Fld.qmQCfgCmplEvt : Fld := ⟨12, 1⟩
/-- QM.Q_CFG.URGENT -/
def Fld.qmQCfgUrgent : Fld := ⟨13, 1⟩
/-- QM.Q_CFG.CORE -/
def Fld.qmQCfgCore : Fld := ⟨16, 8⟩
/-- QM.Q_CFG.EVQ -/
def Fld.qmQCfgEvq : Fld := ⟨32, 16⟩
/-- QM.Q_BASE.ADDR -/
def Fld.qmQBaseAddr : Fld := ⟨0, 64⟩
/-- QM.Q_SHADOW.ADDR -/
def Fld.qmQShadowAddr : Fld := ⟨0, 64⟩
/-- QM.Q_PTR.CONSUMER -/
def Fld.qmQPtrConsumer : Fld := ⟨0, 32⟩
/-- QM.Q_PTR.PRODUCER -/
def Fld.qmQPtrProducer : Fld := ⟨32, 32⟩
/-- QM.Q_STATE.STATE -/
def Fld.qmQStateState : Fld := ⟨0, 3⟩
/-- QM.Q_STATE.BUSY -/
def Fld.qmQStateBusy : Fld := ⟨3, 1⟩
/-- QM.Q_STATE.CTL_ERR -/
def Fld.qmQStateCtlErr : Fld := ⟨4, 1⟩
/-- QM.Q_STATE.LAST_STATUS -/
def Fld.qmQStateLastStatus : Fld := ⟨8, 8⟩
/-- QM.Q_CTL.CTL -/
def Fld.qmQCtlCtl : Fld := ⟨0, 7⟩
/-- QM.Q_RUNCNT.N -/
def Fld.qmQRuncntN : Fld := ⟨0, 32⟩
/-- QM.Q_PEER.QUEUE -/
def Fld.qmQPeerQueue : Fld := ⟨0, 16⟩
/-- QM.Q_PEER.COORD -/
def Fld.qmQPeerCoord : Fld := ⟨16, 16⟩
/-- QM.Q_PEER.KIND -/
def Fld.qmQPeerKind : Fld := ⟨32, 2⟩
/-- QM.Q_PEER.SENDER -/
def Fld.qmQPeerSender : Fld := ⟨34, 1⟩
/-- QM.Q_DATA.ADDR -/
def Fld.qmQDataAddr : Fld := ⟨0, 64⟩
/-- QM.Q_DATA_SIZE.KIB -/
def Fld.qmQDataSizeKib : Fld := ⟨0, 32⟩
/-- QM.APERTURE.BASE -/
def Fld.qmApertureBase : Fld := ⟨0, 48⟩
/-- QM.ACT_RANGE.FIRST_PAGE -/
def Fld.qmActRangeFirstPage : Fld := ⟨0, 10⟩
/-- QM.ACT_RANGE.PAGES -/
def Fld.qmActRangePages : Fld := ⟨16, 11⟩
/-- QM.ACT_SEED.SEED -/
def Fld.qmActSeedSeed : Fld := ⟨0, 64⟩
/-- QM.ACT_EVQ.QUEUE -/
def Fld.qmActEvqQueue : Fld := ⟨0, 16⟩
/-- QM.ACT_EVQ.VALID -/
def Fld.qmActEvqValid : Fld := ⟨16, 1⟩
/-- EVT.QSTAT.DROPPED -/
def Fld.evtQstatDropped : Fld := ⟨0, 32⟩
/-- EVT.QSTAT.OVERFLOW -/
def Fld.evtQstatOverflow : Fld := ⟨32, 1⟩
/-- EVT.MOD.VECTOR -/
def Fld.evtModVector : Fld := ⟨0, 6⟩
/-- EVT.MOD.COUNT -/
def Fld.evtModCount : Fld := ⟨16, 10⟩
/-- EVT.MOD.TIME_NS -/
def Fld.evtModTimeNs : Fld := ⟨32, 32⟩
/-- EVT.PENDING.RECORDS -/
def Fld.evtPendingRecords : Fld := ⟨0, 11⟩
/-- EVT.SEQ.NEXT -/
def Fld.evtSeqNext : Fld := ⟨0, 32⟩
/-- EVT.TEST.SX -/
def Fld.evtTestSx : Fld := ⟨0, 64⟩
/-- IN.SEQ.LEN_128 -/
def Fld.inSeqLen128 : Fld := ⟨0, 14⟩
/-- IN.SEQ.SEQS -/
def Fld.inSeqSeqs : Fld := ⟨16, 8⟩
/-- IN.SEQ.SEG_MAX -/
def Fld.inSeqSegMax : Fld := ⟨32, 14⟩
/-- IN.OUT.FMT -/
def Fld.inOutFmt : Fld := ⟨0, 8⟩
/-- IN.OUT.RND -/
def Fld.inOutRnd : Fld := ⟨8, 1⟩
/-- IN.OUT.SPLIT -/
def Fld.inOutSplit : Fld := ⟨9, 1⟩
/-- IN.OUT.CH4 -/
def Fld.inOutCh4 : Fld := ⟨10, 1⟩
/-- IN.OUT.PATCH -/
def Fld.inOutPatch : Fld := ⟨11, 2⟩
/-- IN.OUT.PATCH_T -/
def Fld.inOutPatchT : Fld := ⟨13, 2⟩
/-- IN.OUT.FRAME_SAMPLES -/
def Fld.inOutFrameSamples : Fld := ⟨16, 16⟩
/-- IN.OUT.STAT_SLOT -/
def Fld.inOutStatSlot : Fld := ⟨32, 12⟩
/-- IN.TENSOR.TENSOR_ID -/
def Fld.inTensorTensorId : Fld := ⟨0, 32⟩
/-- IN.BATCH_BASE.ADDR -/
def Fld.inBatchBaseAddr : Fld := ⟨0, 48⟩
/-- IN.BATCH_CFG.BUFFERS -/
def Fld.inBatchCfgBuffers : Fld := ⟨0, 8⟩
/-- IN.BATCH_CFG.MEDIA_KIB -/
def Fld.inBatchCfgMediaKib : Fld := ⟨32, 32⟩
/-- IN.STAGE_BASE.ADDR -/
def Fld.inStageBaseAddr : Fld := ⟨0, 48⟩
/-- IN.WIN.WINDOW -/
def Fld.inWinWindow : Fld := ⟨0, 11⟩
/-- IN.WIN.SLOT_KIB -/
def Fld.inWinSlotKib : Fld := ⟨32, 32⟩
/-- IN.SEMS.EMIT_SEM -/
def Fld.inSemsEmitSem : Fld := ⟨0, 6⟩
/-- IN.SEMS.FREE_SEM -/
def Fld.inSemsFreeSem : Fld := ⟨8, 6⟩
/-- IN.BUDGET.NS -/
def Fld.inBudgetNs : Fld := ⟨0, 64⟩
/-- IN.STALE.NS -/
def Fld.inStaleNs : Fld := ⟨0, 64⟩
/-- IN.COLOUR.MATRIX -/
def Fld.inColourMatrix : Fld := ⟨0, 2⟩
/-- IN.COLOUR.FULL -/
def Fld.inColourFull : Fld := ⟨2, 1⟩
/-- IN.COLOUR.TRANSFER -/
def Fld.inColourTransfer : Fld := ⟨3, 2⟩
/-- IN.COLOUR.FROM_STREAM -/
def Fld.inColourFromStream : Fld := ⟨5, 1⟩
/-- IN.AUDIO.RATE -/
def Fld.inAudioRate : Fld := ⟨0, 17⟩
/-- IN.AUDIO.OUT_CH -/
def Fld.inAudioOutCh : Fld := ⟨17, 3⟩
/-- IN.MEAN.VALUE -/
def Fld.inMeanValue : Fld := ⟨0, 32⟩
/-- IN.SCALE.VALUE -/
def Fld.inScaleValue : Fld := ⟨0, 32⟩
/-- IN.STATUS.WINDOW_USED -/
def Fld.inStatusWindowUsed : Fld := ⟨0, 11⟩
/-- IN.STATUS.LOAD_WAIT -/
def Fld.inStatusLoadWait : Fld := ⟨11, 1⟩
/-- IN.STATUS.FREE_WAIT -/
def Fld.inStatusFreeWait : Fld := ⟨12, 1⟩
/-- IN.STATUS.HEAD -/
def Fld.inStatusHead : Fld := ⟨32, 32⟩
/-- IN.BATCH.NEXT -/
def Fld.inBatchNext : Fld := ⟨0, 32⟩
/-- IN.BATCH.RELEASED -/
def Fld.inBatchReleased : Fld := ⟨32, 32⟩
/-- IN.VOIDS.SAMPLE_VOID -/
def Fld.inVoidsSampleVoid : Fld := ⟨0, 16⟩
/-- IN.VOIDS.FRAME_STALE -/
def Fld.inVoidsFrameStale : Fld := ⟨16, 16⟩
/-- IN.VOIDS.DECODE_OVERRUN -/
def Fld.inVoidsDecodeOverrun : Fld := ⟨32, 16⟩
/-- IN.VOIDS.OTHER -/
def Fld.inVoidsOther : Fld := ⟨48, 16⟩
/-- IN.HEAD_WAIT.TICKS -/
def Fld.inHeadWaitTicks : Fld := ⟨0, 64⟩
/-- IN.TIMING.VOIDED -/
def Fld.inTimingVoided : Fld := ⟨0, 1⟩
/-- MD.STATUS.IMG_BUSY -/
def Fld.mdStatusImgBusy : Fld := ⟨0, 6⟩
/-- MD.STATUS.VID0_ACTIVE -/
def Fld.mdStatusVid0Active : Fld := ⟨8, 3⟩
/-- MD.STATUS.VID1_ACTIVE -/
def Fld.mdStatusVid1Active : Fld := ⟨12, 3⟩
/-- MD.STATUS.AUD_BUSY -/
def Fld.mdStatusAudBusy : Fld := ⟨16, 2⟩
/-- MD.IMG_PIXELS.COUNT -/
def Fld.mdImgPixelsCount : Fld := ⟨0, 64⟩
/-- MD.VID_PIXELS.COUNT -/
def Fld.mdVidPixelsCount : Fld := ⟨0, 64⟩
/-- MD.AUD_SAMPLES.COUNT -/
def Fld.mdAudSamplesCount : Fld := ⟨0, 64⟩
/-- MD.ERR.CORRUPT -/
def Fld.mdErrCorrupt : Fld := ⟨0, 16⟩
/-- MD.ERR.UNSUPPORTED -/
def Fld.mdErrUnsupported : Fld := ⟨16, 16⟩
/-- TOK.STATUS.BUSY -/
def Fld.tokStatusBusy : Fld := ⟨0, 2⟩
/-- TOK.BYTES.COUNT -/
def Fld.tokBytesCount : Fld := ⟨0, 64⟩
/-- TOK.TOKENS.COUNT -/
def Fld.tokTokensCount : Fld := ⟨0, 64⟩
/-- TS.SLOT.CUR_GEN -/
def Fld.tsSlotCurGen : Fld := ⟨0, 8⟩
/-- TS.SLOT.CUR_VALID -/
def Fld.tsSlotCurValid : Fld := ⟨8, 1⟩
/-- TS.SLOT.PREV_GEN -/
def Fld.tsSlotPrevGen : Fld := ⟨16, 8⟩
/-- TS.SLOT.PREV_VALID -/
def Fld.tsSlotPrevValid : Fld := ⟨24, 1⟩
/-- TS.SLOT.LOAD_WAIT -/
def Fld.tsSlotLoadWait : Fld := ⟨25, 1⟩
/-- TS.SLOT.OWNER -/
def Fld.tsSlotOwner : Fld := ⟨28, 4⟩
/-- TS.SLOT.LOADS -/
def Fld.tsSlotLoads : Fld := ⟨32, 32⟩
/-- TS.REFS.CUR_REFS -/
def Fld.tsRefsCurRefs : Fld := ⟨0, 32⟩
/-- TS.REFS.PREV_REFS -/
def Fld.tsRefsPrevRefs : Fld := ⟨32, 32⟩
/-- TS.SIZE.BYTES -/
def Fld.tsSizeBytes : Fld := ⟨0, 32⟩
/-- CAR.STATUS.IN_FLIGHT -/
def Fld.carStatusInFlight : Fld := ⟨0, 8⟩
/-- CAR.BLOCKS_TX.COUNT -/
def Fld.carBlocksTxCount : Fld := ⟨0, 64⟩
/-- CAR.BLOCKS_RX.COUNT -/
def Fld.carBlocksRxCount : Fld := ⟨0, 64⟩
/-- CAR.RETRY.RETRIES -/
def Fld.carRetryRetries : Fld := ⟨0, 16⟩
/-- CAR.RETRY.LINK_FAULTS -/
def Fld.carRetryLinkFaults : Fld := ⟨16, 16⟩
/-- CAR.RETRY.BUMPS -/
def Fld.carRetryBumps : Fld := ⟨32, 32⟩
/-- CAR.SLOT_SEL.SLOT -/
def Fld.carSlotSelSlot : Fld := ⟨0, 7⟩
/-- CAR.SLOT.TAG -/
def Fld.carSlotTag : Fld := ⟨0, 16⟩
/-- CAR.SLOT.STATE -/
def Fld.carSlotState : Fld := ⟨16, 3⟩
/-- CAR.SLOT.POISON -/
def Fld.carSlotPoison : Fld := ⟨19, 1⟩
/-- CAR.SLOT.HOP -/
def Fld.carSlotHop : Fld := ⟨20, 4⟩
/-- CAR.SLOT.ACT -/
def Fld.carSlotAct : Fld := ⟨24, 4⟩
/-- CAR.SLOT.STEP -/
def Fld.carSlotStep : Fld := ⟨32, 32⟩
/-- CAR.BKT_CTL.AXIS -/
def Fld.carBktCtlAxis : Fld := ⟨0, 2⟩
/-- CAR.BKT_CTL.POLICY -/
def Fld.carBktCtlPolicy : Fld := ⟨2, 1⟩
/-- CAR.BKT_CTL.WAIT -/
def Fld.carBktCtlWait : Fld := ⟨3, 1⟩
/-- CAR.BKT_CTL.HEADROOM -/
def Fld.carBktCtlHeadroom : Fld := ⟨4, 3⟩
/-- CAR.TABLE.ADDR -/
def Fld.carTableAddr : Fld := ⟨0, 48⟩
/-- CAR.HP.ADDR -/
def Fld.carHpAddr : Fld := ⟨0, 48⟩
/-- CAR.SCRATCH.ADDR -/
def Fld.carScratchAddr : Fld := ⟨0, 48⟩
/-- CAR.SCRATCH_SIZE.MIB -/
def Fld.carScratchSizeMib : Fld := ⟨0, 32⟩
/-- CAR.PEER_NS.NS -/
def Fld.carPeerNsNs : Fld := ⟨0, 64⟩
/-- CAR.WAIT.TICKS -/
def Fld.carWaitTicks : Fld := ⟨0, 64⟩
/-- CAR.POISON.VALID -/
def Fld.carPoisonValid : Fld := ⟨0, 1⟩
/-- CAR.POISON.TAG -/
def Fld.carPoisonTag : Fld := ⟨16, 16⟩
/-- CAR.POISON.STEP -/
def Fld.carPoisonStep : Fld := ⟨32, 32⟩
/-- CAR.POISON_POS.INDEX -/
def Fld.carPoisonPosIndex : Fld := ⟨0, 32⟩
/-- CAR.POISON_POS.COORD -/
def Fld.carPoisonPosCoord : Fld := ⟨32, 16⟩
/-- OPT.STATUS.BUSY -/
def Fld.optStatusBusy : Fld := ⟨0, 1⟩
/-- OPT.STATUS.COMMIT_WAIT -/
def Fld.optStatusCommitWait : Fld := ⟨1, 1⟩
/-- OPT.UPDATED.COUNT -/
def Fld.optUpdatedCount : Fld := ⟨0, 64⟩
/-- OPT.HELD.COUNT -/
def Fld.optHeldCount : Fld := ⟨0, 64⟩
/-- OPT.BUSY_TICKS.TICKS -/
def Fld.optBusyTicksTicks : Fld := ⟨0, 64⟩
/-- FAB.SELF.ADDR -/
def Fld.fabSelfAddr : Fld := ⟨0, 16⟩
/-- FAB.SELF.SPARE -/
def Fld.fabSelfSpare : Fld := ⟨16, 1⟩
/-- FAB.SELF.LOGICAL -/
def Fld.fabSelfLogical : Fld := ⟨32, 16⟩
/-- FAB.SELF.LOGICAL_VALID -/
def Fld.fabSelfLogicalValid : Fld := ⟨48, 1⟩
/-- FAB.EXTENT.NX -/
def Fld.fabExtentNx : Fld := ⟨0, 4⟩
/-- FAB.EXTENT.NY -/
def Fld.fabExtentNy : Fld := ⟨4, 4⟩
/-- FAB.EXTENT.NZ -/
def Fld.fabExtentNz : Fld := ⟨8, 4⟩
/-- FAB.EXTENT.NW -/
def Fld.fabExtentNw : Fld := ⟨12, 4⟩
/-- FAB.ID.ID -/
def Fld.fabIdId : Fld := ⟨0, 64⟩
/-- FAB.CRYPTO.ENCRYPT -/
def Fld.fabCryptoEncrypt : Fld := ⟨0, 1⟩
/-- FAB.CRYPTO.ROOT_LOADED -/
def Fld.fabCryptoRootLoaded : Fld := ⟨1, 1⟩
/-- FAB.FAULTS.ENTRIES -/
def Fld.fabFaultsEntries : Fld := ⟨0, 10⟩
/-- FAB.FAULTS.FULL -/
def Fld.fabFaultsFull : Fld := ⟨10, 1⟩
/-- FAB.FAULT_SEL.ENTRY -/
def Fld.fabFaultSelEntry : Fld := ⟨0, 9⟩
/-- FAB.FAULT.ADDR -/
def Fld.fabFaultAddr : Fld := ⟨0, 16⟩
/-- FAB.FAULT.PORT -/
def Fld.fabFaultPort : Fld := ⟨16, 3⟩
/-- FAB.FAULT.STATE -/
def Fld.fabFaultState : Fld := ⟨19, 3⟩
/-- FAB.FAULT.VALID -/
def Fld.fabFaultValid : Fld := ⟨22, 1⟩
/-- FAB.FAULT.GEN -/
def Fld.fabFaultGen : Fld := ⟨32, 32⟩
/-- FAB.DROPS.UNREACHABLE -/
def Fld.fabDropsUnreachable : Fld := ⟨0, 32⟩
/-- FAB.DROPS.HOPS -/
def Fld.fabDropsHops : Fld := ⟨32, 32⟩
/-- FAB.REMAP.LOGICAL -/
def Fld.fabRemapLogical : Fld := ⟨0, 16⟩
/-- FAB.REMAP.PHYSICAL -/
def Fld.fabRemapPhysical : Fld := ⟨16, 16⟩
/-- FAB.REMAP.VALID -/
def Fld.fabRemapValid : Fld := ⟨32, 1⟩
/-- LNK.STATUS.STATE -/
def Fld.lnkStatusState : Fld := ⟨0, 3⟩
/-- LNK.STATUS.ENCRYPTED -/
def Fld.lnkStatusEncrypted : Fld := ⟨3, 1⟩
/-- LNK.STATUS.REASON -/
def Fld.lnkStatusReason : Fld := ⟨4, 4⟩
/-- LNK.STATUS.LANES -/
def Fld.lnkStatusLanes : Fld := ⟨8, 8⟩
/-- LNK.STATUS.PARTNER -/
def Fld.lnkStatusPartner : Fld := ⟨16, 16⟩
/-- LNK.STATUS.PARTNER_PORT -/
def Fld.lnkStatusPartnerPort : Fld := ⟨32, 3⟩
/-- LNK.CTL.RETRY -/
def Fld.lnkCtlRetry : Fld := ⟨0, 1⟩
/-- LNK.CTL.DISABLE -/
def Fld.lnkCtlDisable : Fld := ⟨1, 1⟩
/-- LNK.CTL.CTL_RATE -/
def Fld.lnkCtlCtlRate : Fld := ⟨32, 16⟩
/-- LNK.CREDIT_NS.NS -/
def Fld.lnkCreditNsNs : Fld := ⟨0, 32⟩
/-- LNK.PARTNER_SERIAL.SERIAL -/
def Fld.lnkPartnerSerialSerial : Fld := ⟨0, 64⟩
/-- LNK.FEC.CORRECTED -/
def Fld.lnkFecCorrected : Fld := ⟨0, 32⟩
/-- LNK.FEC.UNCORRECTED -/
def Fld.lnkFecUncorrected : Fld := ⟨32, 32⟩
/-- LNK.RETRY.REPLAYS -/
def Fld.lnkRetryReplays : Fld := ⟨0, 16⟩
/-- LNK.RETRY.RETRAINS -/
def Fld.lnkRetryRetrains : Fld := ⟨16, 16⟩
/-- LNK.RETRY.BLOCK_FAILS -/
def Fld.lnkRetryBlockFails : Fld := ⟨32, 16⟩
/-- LNK.HOSTILE.TAG_FAILS -/
def Fld.lnkHostileTagFails : Fld := ⟨0, 16⟩
/-- LNK.HOSTILE.ADDR_DROPS -/
def Fld.lnkHostileAddrDrops : Fld := ⟨16, 16⟩
/-- LNK.HOSTILE.CTL_DROPS -/
def Fld.lnkHostileCtlDrops : Fld := ⟨32, 16⟩
/-- LNK.TIME.DELAY_PS -/
def Fld.lnkTimeDelayPs : Fld := ⟨0, 32⟩
/-- LNK.TIME.ASYM_PS -/
def Fld.lnkTimeAsymPs : Fld := ⟨32, 32⟩
/-- LNK.VC.CREDITS0 -/
def Fld.lnkVcCredits0 : Fld := ⟨0, 10⟩
/-- LNK.VC.CREDITS1 -/
def Fld.lnkVcCredits1 : Fld := ⟨16, 10⟩
/-- LNK.BYTES_TX.COUNT -/
def Fld.lnkBytesTxCount : Fld := ⟨0, 64⟩
/-- LNK.BYTES_RX.COUNT -/
def Fld.lnkBytesRxCount : Fld := ⟨0, 64⟩
/-- LNK.DEGRADES.COUNT -/
def Fld.lnkDegradesCount : Fld := ⟨0, 8⟩
/-- NET.CTL.WDOG_US -/
def Fld.netCtlWdogUs : Fld := ⟨0, 16⟩
/-- NET.CTL.SWAP_WAIT -/
def Fld.netCtlSwapWait : Fld := ⟨16, 16⟩
/-- NET.CTL.SPARE_TEST_S -/
def Fld.netCtlSpareTestS : Fld := ⟨32, 16⟩
/-- NET.STATUS.SPARES -/
def Fld.netStatusSpares : Fld := ⟨0, 8⟩
/-- NET.STATUS.FENCED -/
def Fld.netStatusFenced : Fld := ⟨8, 8⟩
/-- NET.STATUS.DOUBLED -/
def Fld.netStatusDoubled : Fld := ⟨16, 8⟩
/-- NET.STATUS.WARDEN -/
def Fld.netStatusWarden : Fld := ⟨24, 1⟩
/-- NET.STATUS.LOST -/
def Fld.netStatusLost : Fld := ⟨25, 1⟩
/-- NET.HB.PERIOD_NS -/
def Fld.netHbPeriodNs : Fld := ⟨0, 32⟩
/-- NET.HB.TIMEOUT_NS -/
def Fld.netHbTimeoutNs : Fld := ⟨32, 32⟩
/-- NET.WARDEN.PRIMARY -/
def Fld.netWardenPrimary : Fld := ⟨0, 16⟩
/-- NET.WARDEN.BACKUP -/
def Fld.netWardenBackup : Fld := ⟨16, 16⟩
/-- NET.CKPT.STEPS -/
def Fld.netCkptSteps : Fld := ⟨0, 16⟩
/-- NET.CKPT.BUDDY_AXIS -/
def Fld.netCkptBuddyAxis : Fld := ⟨16, 2⟩
/-- NET.CKPT.ACT -/
def Fld.netCkptAct : Fld := ⟨18, 4⟩
/-- NET.CKPT.LAST_STEP -/
def Fld.netCkptLastStep : Fld := ⟨32, 32⟩
/-- NET.AREA.ADDR -/
def Fld.netAreaAddr : Fld := ⟨0, 48⟩
/-- NET.AREA.SPACE -/
def Fld.netAreaSpace : Fld := ⟨48, 3⟩
/-- NET.ROLLBACK.STEP -/
def Fld.netRollbackStep : Fld := ⟨0, 32⟩
/-- NET.ROLLBACK.COUNT -/
def Fld.netRollbackCount : Fld := ⟨32, 32⟩
/-- NET.CKPT_REGION.ADDR -/
def Fld.netCkptRegionAddr : Fld := ⟨0, 48⟩
/-- NET.CKPT_REGION.SIZE_MIB -/
def Fld.netCkptRegionSizeMib : Fld := ⟨48, 16⟩
/-- NET.CORE.STATE -/
def Fld.netCoreState : Fld := ⟨0, 3⟩
/-- NET.CORE.LOGICAL -/
def Fld.netCoreLogical : Fld := ⟨4, 8⟩
/-- NET.CORE.LOGICAL2 -/
def Fld.netCoreLogical2 : Fld := ⟨12, 8⟩
/-- NET.CORE.ACT -/
def Fld.netCoreAct : Fld := ⟨20, 4⟩
/-- NET.CORE.CAUSE -/
def Fld.netCoreCause : Fld := ⟨24, 8⟩
/-- NET.CORE.STAMP -/
def Fld.netCoreStamp : Fld := ⟨32, 32⟩
/-- NET.CORE_CMD.CORE -/
def Fld.netCoreCmdCore : Fld := ⟨0, 8⟩
/-- NET.CORE_CMD.CMD -/
def Fld.netCoreCmdCmd : Fld := ⟨8, 2⟩
/-- NET.RAIL.MV -/
def Fld.netRailMv : Fld := ⟨0, 16⟩
/-- NET.RAIL.WARN -/
def Fld.netRailWarn : Fld := ⟨16, 1⟩
/-- NET.RAIL.TRIP -/
def Fld.netRailTrip : Fld := ⟨17, 1⟩
/-- NET.TEMP.TEMP -/
def Fld.netTempTemp : Fld := ⟨0, 16⟩
/-- NET.TEMP.LEVEL -/
def Fld.netTempLevel : Fld := ⟨16, 2⟩
/-- BBX.CTL.FREEZE -/
def Fld.bbxCtlFreeze : Fld := ⟨0, 1⟩
/-- BBX.CTL.THAW -/
def Fld.bbxCtlThaw : Fld := ⟨1, 1⟩
/-- BBX.STATUS.FROZEN -/
def Fld.bbxStatusFrozen : Fld := ⟨0, 1⟩
/-- BBX.STATUS.CAUSE -/
def Fld.bbxStatusCause : Fld := ⟨1, 3⟩
/-- BBX.STATUS.SEQ_NEXT -/
def Fld.bbxStatusSeqNext : Fld := ⟨32, 32⟩
/-- BBX.FREEZE_AT.STAMP -/
def Fld.bbxFreezeAtStamp : Fld := ⟨0, 64⟩
/-- BBX.LOST.ENTRIES -/
def Fld.bbxLostEntries : Fld := ⟨0, 32⟩
/-- BBX.LOST.GAPS -/
def Fld.bbxLostGaps : Fld := ⟨32, 32⟩
/-- BBX.FLASH.HEAD -/
def Fld.bbxFlashHead : Fld := ⟨0, 18⟩
/-- BBX.FLASH.HEAD_SEQ -/
def Fld.bbxFlashHeadSeq : Fld := ⟨32, 32⟩
/-- BBX.FLASH_SEL.ENTRY -/
def Fld.bbxFlashSelEntry : Fld := ⟨0, 18⟩
/-- BBX.FLASH_DATA.DATA -/
def Fld.bbxFlashDataData : Fld := ⟨0, 64⟩
/-- BBX.ENTRY.DATA -/
def Fld.bbxEntryData : Fld := ⟨0, 64⟩
/-- BOOT.STATUS.PB_SLOT -/
def Fld.bootStatusPbSlot : Fld := ⟨0, 2⟩
/-- BOOT.STATUS.FW_BANK -/
def Fld.bootStatusFwBank : Fld := ⟨2, 1⟩
/-- BOOT.STATUS.FW_OK -/
def Fld.bootStatusFwOk : Fld := ⟨3, 1⟩
/-- BOOT.STATUS.PB_ERR_A -/
def Fld.bootStatusPbErrA : Fld := ⟨4, 4⟩
/-- BOOT.STATUS.PB_ERR_B -/
def Fld.bootStatusPbErrB : Fld := ⟨8, 4⟩
/-- BOOT.STATUS.KEY_SLOT -/
def Fld.bootStatusKeySlot : Fld := ⟨12, 2⟩
/-- BOOT.STATUS.PB_SEQ -/
def Fld.bootStatusPbSeq : Fld := ⟨32, 32⟩
/-- BOOT.FUSE.KEY_VALID -/
def Fld.bootFuseKeyValid : Fld := ⟨0, 4⟩
/-- BOOT.FUSE.KEY_REVOKED -/
def Fld.bootFuseKeyRevoked : Fld := ⟨4, 4⟩
/-- BOOT.RESULT.CORES_FAILED -/
def Fld.bootResultCoresFailed : Fld := ⟨0, 8⟩
/-- BOOT.RESULT.STACKS_FAILED -/
def Fld.bootResultStacksFailed : Fld := ⟨32, 32⟩
/-- BOOT.TIMES.TRAIN_MS -/
def Fld.bootTimesTrainMs : Fld := ⟨0, 32⟩
/-- BOOT.TIMES.READY_MS -/
def Fld.bootTimesReadyMs : Fld := ⟨32, 32⟩
/-- BOOT.CTL.REBOOT -/
def Fld.bootCtlReboot : Fld := ⟨0, 16⟩
/-- BOOT.FLASH_ADDR.ADDR -/
def Fld.bootFlashAddrAddr : Fld := ⟨0, 26⟩
/-- BOOT.FLASH_CMD.CMD -/
def Fld.bootFlashCmdCmd : Fld := ⟨0, 2⟩
/-- BOOT.FLASH_CMD.BUSY -/
def Fld.bootFlashCmdBusy : Fld := ⟨8, 1⟩
/-- BOOT.FLASH_CMD.DENIED -/
def Fld.bootFlashCmdDenied : Fld := ⟨9, 1⟩
/-- BOOT.FLASH_BUF.DATA -/
def Fld.bootFlashBufData : Fld := ⟨0, 64⟩
/-- PWR.STATUS.STATE -/
def Fld.pwrStatusState : Fld := ⟨0, 3⟩
/-- PWR.STATUS.WARN_IN -/
def Fld.pwrStatusWarnIn : Fld := ⟨3, 1⟩
/-- PWR.STATUS.THROTTLE_K -/
def Fld.pwrStatusThrottleK : Fld := ⟨4, 2⟩
/-- PWR.INPUT.MV -/
def Fld.pwrInputMv : Fld := ⟨0, 32⟩
/-- PWR.INPUT.MA -/
def Fld.pwrInputMa : Fld := ⟨32, 32⟩
/-- PWR.POWER.WATTS_1MS -/
def Fld.pwrPowerWatts1ms : Fld := ⟨0, 16⟩
/-- PWR.POWER.WATTS_100MS -/
def Fld.pwrPowerWatts100ms : Fld := ⟨16, 16⟩
/-- PWR.POWER.PEAK -/
def Fld.pwrPowerPeak : Fld := ⟨32, 16⟩
/-- PWR.CAP.WATTS -/
def Fld.pwrCapWatts : Fld := ⟨0, 12⟩
/-- PWR.ENERGY.MJ -/
def Fld.pwrEnergyMj : Fld := ⟨0, 64⟩
/-- PWR.THROTTLED.TICKS -/
def Fld.pwrThrottledTicks : Fld := ⟨0, 64⟩
/-- PWR.COOLANT.INLET -/
def Fld.pwrCoolantInlet : Fld := ⟨0, 16⟩
/-- PWR.COOLANT.OUTLET -/
def Fld.pwrCoolantOutlet : Fld := ⟨16, 16⟩
/-- MGT.SERIAL.SERIAL -/
def Fld.mgtSerialSerial : Fld := ⟨0, 64⟩
/-- MGT.SMB.ADDR -/
def Fld.mgtSmbAddr : Fld := ⟨0, 7⟩
/-- MGT.SMB.EID -/
def Fld.mgtSmbEid : Fld := ⟨8, 8⟩
/-- MGT.SMB.UPDATE -/
def Fld.mgtSmbUpdate : Fld := ⟨16, 1⟩
/-- MGT.SMB.COMPONENT -/
def Fld.mgtSmbComponent : Fld := ⟨17, 2⟩
/-- MGT.ERR.PEC_DROPS -/
def Fld.mgtErrPecDrops : Fld := ⟨0, 16⟩
/-- PRB.CHALLENGE.NONCE -/
def Fld.prbChallengeNonce : Fld := ⟨0, 64⟩
/-- PRB.TOKEN.DATA -/
def Fld.prbTokenData : Fld := ⟨0, 64⟩
/-- PRB.CMD.CMD -/
def Fld.prbCmdCmd : Fld := ⟨0, 2⟩
/-- PRB.STATUS.UNLOCKED -/
def Fld.prbStatusUnlocked : Fld := ⟨0, 1⟩
/-- PRB.STATUS.FAIL -/
def Fld.prbStatusFail : Fld := ⟨1, 3⟩
/-- PRB.EXPIRY.TICK -/
def Fld.prbExpiryTick : Fld := ⟨0, 64⟩
/-- PRB.SEL.GROUP -/
def Fld.prbSelGroup : Fld := ⟨0, 4⟩
/-- PRB.SEL.INDEX -/
def Fld.prbSelIndex : Fld := ⟨8, 8⟩

/-- Registers of the map, part 1. -/
def regMap1 : List RegDef := [
  -- TOP.STATE
  ⟨0x0, [], 4, [⟨⟨0, 4⟩, .ro, 0, false, []⟩, ⟨⟨4, 1⟩, .ro, 0, false, []⟩, ⟨⟨5, 1⟩, .ro, 0, false, []⟩]⟩,
  -- TOP.SCRATCH
  ⟨0x8, [], 8, [⟨⟨0, 64⟩, .rw, 0, false, []⟩]⟩,
  -- CAP.ID
  ⟨0x1000, [], 4, [⟨⟨0, 8⟩, .ro, 0, false, []⟩, ⟨⟨8, 8⟩, .ro, 0, false, []⟩, ⟨⟨16, 16⟩, .ro, 0x960, false, []⟩]⟩,
  -- CAP.CORES
  ⟨0x1004, [], 4, [⟨⟨0, 8⟩, .ro, 0, false, []⟩, ⟨⟨8, 8⟩, .ro, 0, false, []⟩, ⟨⟨16, 8⟩, .ro, 0, false, []⟩]⟩,
  -- CAP.CORE_EN
  ⟨0x1010, [(0x4, 6)], 4, [⟨⟨0, 32⟩, .ro, 0, false, []⟩]⟩,
  -- CAP.CORE_EN6
  ⟨0x1028, [], 4, [⟨⟨0, 16⟩, .ro, 0, false, []⟩]⟩,
  -- CAP.CORE_SP
  ⟨0x1030, [(0x4, 6)], 4, [⟨⟨0, 32⟩, .ro, 0, false, []⟩]⟩,
  -- CAP.CORE_SP6
  ⟨0x1048, [], 4, [⟨⟨0, 16⟩, .ro, 0, false, []⟩]⟩,
  -- CAP.MEDIA
  ⟨0x1050, [], 4, [⟨⟨0, 4⟩, .ro, 0, false, []⟩]⟩,
  -- CAP.FAR
  ⟨0x1054, [], 4, [⟨⟨0, 4⟩, .ro, 0, false, []⟩]⟩,
  -- CAP.FABRIC
  ⟨0x1058, [], 4, [⟨⟨0, 8⟩, .ro, 0xff, false, []⟩]⟩,
  -- NUM.FPCTL
  ⟨0x1004000, [(0x10000, 208)], 4, [⟨⟨0, 2⟩, .rw, 0, false, []⟩]⟩,
  -- NUM.FLAGS
  ⟨0x1004008, [(0x10000, 208)], 4, [⟨⟨0, 1⟩, .w1c, 0, false, []⟩, ⟨⟨1, 1⟩, .w1c, 0, false, []⟩, ⟨⟨2, 1⟩, .w1c, 0, false, []⟩, ⟨⟨3, 1⟩, .w1c, 0, false, []⟩, ⟨⟨4, 1⟩, .w1c, 0, false, []⟩, ⟨⟨5, 1⟩, .w1c, 0, false, []⟩, ⟨⟨8, 1⟩, .w1c, 0, false, []⟩, ⟨⟨9, 1⟩, .w1c, 0, false, []⟩, ⟨⟨10, 1⟩, .w1c, 0, false, []⟩, ⟨⟨11, 1⟩, .w1c, 0, false, []⟩, ⟨⟨12, 1⟩, .w1c, 0, false, []⟩]⟩,
  -- NUM.TILE_NAN
  ⟨0x1004010, [(0x10000, 208)], 8, [⟨⟨0, 7⟩, .ro, 0, false, []⟩, ⟨⟨8, 7⟩, .ro, 0, false, []⟩, ⟨⟨15, 1⟩, .w1c, 0, false, []⟩, ⟨⟨16, 16⟩, .ro, 0, false, []⟩, ⟨⟨32, 32⟩, .ro, 0, false, []⟩]⟩,
  -- NUM.HIST
  ⟨0x1004100, [(0x10000, 208), (0x100, 4), (0x4, 64)], 4, [⟨⟨0, 32⟩, .rc, 0, false, []⟩]⟩,
  -- MX.CTL
  ⟨0x1003000, [(0x10000, 208)], 4, [⟨⟨0, 5⟩, .rw, 4, false, [(0, 16)]⟩, ⟨⟨8, 1⟩, .wo, 0, false, []⟩]⟩,
  -- MX.STATUS
  ⟨0x1003008, [(0x10000, 208)], 4, [⟨⟨0, 1⟩, .ro, 0, false, []⟩, ⟨⟨1, 1⟩, .ro, 0, false, []⟩, ⟨⟨2, 1⟩, .ro, 0, false, []⟩, ⟨⟨3, 1⟩, .ro, 0, false, []⟩, ⟨⟨4, 1⟩, .ro, 0, false, []⟩]⟩,
  -- MX.FAULT
  ⟨0x1003010, [(0x10000, 208)], 8, [⟨⟨0, 1⟩, .w1c, 0, false, []⟩, ⟨⟨1, 2⟩, .ro, 0, false, []⟩, ⟨⟨3, 1⟩, .ro, 0, false, []⟩, ⟨⟨4, 2⟩, .ro, 0, false, []⟩, ⟨⟨6, 7⟩, .ro, 0, false, []⟩, ⟨⟨13, 2⟩, .ro, 0, false, []⟩, ⟨⟨32, 32⟩, .ro, 0, false, []⟩]⟩]

/-- Registers of the map, part 2. -/
def regMap2 : List RegDef := [
  -- MX.XPFAULT
  ⟨0x1003018, [(0x10000, 208)], 8, [⟨⟨0, 1⟩, .w1c, 0, false, []⟩, ⟨⟨1, 2⟩, .ro, 0, false, []⟩, ⟨⟨8, 8⟩, .ro, 0, false, []⟩, ⟨⟨32, 32⟩, .ro, 0, false, []⟩]⟩,
  -- MX.XPPOS
  ⟨0x1003020, [(0x10000, 208)], 8, [⟨⟨0, 48⟩, .ro, 0, false, []⟩]⟩,
  -- MX.CNT
  ⟨0x1003100, [(0x10000, 208), (0x40, 2), (0x8, 5)], 8, [⟨⟨0, 64⟩, .ro, 0, false, []⟩]⟩,
  -- MX.ACD0
  ⟨0x1003200, [(0x10000, 208), (0x10, 64)], 8, [⟨⟨0, 19⟩, .ro, 0, false, []⟩, ⟨⟨20, 20⟩, .ro, 0, false, []⟩, ⟨⟨48, 16⟩, .ro, 0, false, []⟩]⟩,
  -- MX.ACD1
  ⟨0x1003208, [(0x10000, 208), (0x10, 64)], 8, [⟨⟨0, 16⟩, .ro, 0, false, []⟩, ⟨⟨16, 1⟩, .ro, 0, false, []⟩, ⟨⟨17, 1⟩, .ro, 0, false, []⟩, ⟨⟨32, 32⟩, .ro, 0, false, []⟩]⟩,
  -- MX.XPQ
  ⟨0x1003600, [(0x10000, 208), (0x8, 4)], 4, [⟨⟨0, 14⟩, .ro, 0, false, []⟩, ⟨⟨16, 14⟩, .rc, 0, false, []⟩]⟩,
  -- VX.STATUS
  ⟨0x1005000, [(0x10000, 208)], 4, [⟨⟨0, 1⟩, .ro, 0, false, []⟩, ⟨⟨1, 1⟩, .ro, 0, false, []⟩]⟩,
  -- VX.FAULT
  ⟨0x1005008, [(0x10000, 208)], 8, [⟨⟨0, 1⟩, .w1c, 0, false, []⟩, ⟨⟨1, 7⟩, .ro, 0, false, []⟩, ⟨⟨8, 8⟩, .ro, 0, false, []⟩, ⟨⟨32, 32⟩, .ro, 0, false, []⟩]⟩,
  -- VX.ADDR
  ⟨0x1005010, [(0x10000, 208)], 8, [⟨⟨0, 48⟩, .ro, 0, false, []⟩]⟩,
  -- VX.MASK
  ⟨0x1005100, [(0x10000, 208), (0x10, 8)], 8, [⟨⟨0, 64⟩, .ro, 0, false, []⟩]⟩,
  -- VX.MASK_HI
  ⟨0x1005108, [(0x10000, 208), (0x10, 8)], 8, [⟨⟨0, 64⟩, .ro, 0, false, []⟩]⟩,
  -- ROW.STATUS
  ⟨0x1006000, [(0x10000, 208)], 4, [⟨⟨0, 1⟩, .ro, 0, false, []⟩]⟩,
  -- ROW.SIDE_IDX
  ⟨0x1006008, [(0x10000, 208)], 4, [⟨⟨0, 14⟩, .rw, 0, false, []⟩]⟩,
  -- ROW.SIDE_DATA
  ⟨0x1006010, [(0x10000, 208)], 8, [⟨⟨0, 32⟩, .ro, 0, false, []⟩, ⟨⟨32, 32⟩, .ro, 0, false, []⟩]⟩,
  -- ROW.FAULT
  ⟨0x1006018, [(0x10000, 208)], 8, [⟨⟨0, 1⟩, .w1c, 0, false, []⟩, ⟨⟨8, 8⟩, .ro, 0, false, []⟩, ⟨⟨32, 32⟩, .ro, 0, false, []⟩]⟩,
  -- CV.STATUS
  ⟨0x1007000, [(0x10000, 208)], 4, [⟨⟨0, 1⟩, .ro, 0, false, []⟩, ⟨⟨1, 1⟩, .ro, 0, false, []⟩, ⟨⟨2, 1⟩, .ro, 0, false, []⟩]⟩,
  -- CV.POS
  ⟨0x1007008, [(0x10000, 208), (0x8, 2)], 8, [⟨⟨0, 48⟩, .ro, 0, false, []⟩]⟩,
  -- VX.VREG
  ⟨0x1008000, [(0x10000, 208), (0x200, 64), (0x8, 64)], 8, [⟨⟨0, 64⟩, .ro, 0, false, []⟩]⟩]

/-- Registers of the map, part 3. -/
def regMap3 : List RegDef := [
  -- SEQ.STATUS
  ⟨0x1002000, [(0x10000, 208), (0x800, 2)], 4, [⟨⟨0, 1⟩, .ro, 0, false, []⟩, ⟨⟨1, 2⟩, .ro, 0, false, []⟩, ⟨⟨8, 4⟩, .ro, 0, false, []⟩, ⟨⟨12, 3⟩, .ro, 0, false, []⟩]⟩,
  -- SEQ.OFFSET
  ⟨0x1002008, [(0x10000, 208), (0x800, 2)], 8, [⟨⟨0, 32⟩, .ro, 0, false, []⟩, ⟨⟨32, 32⟩, .ro, 0, false, []⟩]⟩,
  -- SEQ.FAULT
  ⟨0x1002010, [(0x10000, 208), (0x800, 2)], 8, [⟨⟨0, 1⟩, .w1c, 0, false, []⟩, ⟨⟨1, 3⟩, .ro, 0, false, []⟩, ⟨⟨4, 1⟩, .ro, 0, false, []⟩, ⟨⟨8, 8⟩, .ro, 0, false, []⟩, ⟨⟨32, 32⟩, .ro, 0, false, []⟩]⟩,
  -- SEQ.FAULTPOS
  ⟨0x1002018, [(0x10000, 208), (0x800, 2)], 8, [⟨⟨0, 32⟩, .ro, 0, false, []⟩]⟩,
  -- SEQ.SYNCPOS
  ⟨0x1002020, [(0x10000, 208), (0x800, 2)], 8, [⟨⟨0, 32⟩, .ro, 0, false, []⟩, ⟨⟨32, 32⟩, .ro, 0, false, []⟩]⟩,
  -- SEQ.STEP
  ⟨0x1002028, [(0x10000, 208), (0x800, 2)], 8, [⟨⟨0, 32⟩, .ro, 0, false, []⟩]⟩,
  -- SEQ.PRED
  ⟨0x1002030, [(0x10000, 208), (0x800, 2)], 8, [⟨⟨0, 8⟩, .ro, 0, false, []⟩]⟩,
  -- SEQ.LOOP
  ⟨0x1002038, [(0x10000, 208), (0x800, 2), (0x8, 4)], 8, [⟨⟨0, 32⟩, .ro, 0, false, []⟩, ⟨⟨32, 32⟩, .ro, 0, false, []⟩]⟩,
  -- SEQ.SREG
  ⟨0x1002100, [(0x10000, 208), (0x800, 2), (0x8, 32)], 8, [⟨⟨0, 64⟩, .ro, 0, false, []⟩]⟩,
  -- MEM.CTL
  ⟨0xa00000, [], 4, [⟨⟨0, 6⟩, .rw, 8, false, [(0, 32)]⟩, ⟨⟨8, 8⟩, .rw, 0xc, false, []⟩]⟩,
  -- MEM.STACK_OK
  ⟨0xa00008, [], 4, [⟨⟨0, 32⟩, .ro, 0, false, []⟩]⟩,
  -- MEM.UE
  ⟨0xa00010, [], 8, [⟨⟨0, 1⟩, .w1c, 0, false, []⟩, ⟨⟨1, 2⟩, .ro, 0, false, []⟩, ⟨⟨3, 5⟩, .ro, 0, false, []⟩, ⟨⟨16, 43⟩, .ro, 0, false, []⟩]⟩,
  -- MEM.STK0
  ⟨0xa00100, [(0x10, 32)], 8, [⟨⟨0, 32⟩, .rc, 0, false, []⟩, ⟨⟨32, 16⟩, .rc, 0, false, []⟩, ⟨⟨48, 5⟩, .ro, 0, false, []⟩, ⟨⟨53, 1⟩, .ro, 0, false, []⟩]⟩,
  -- MEM.STK1
  ⟨0xa00108, [(0x10, 32)], 8, [⟨⟨0, 10⟩, .ro, 0, false, []⟩, ⟨⟨16, 10⟩, .rc, 0, false, []⟩]⟩,
  -- MEM.WIN
  ⟨0xa00400, [(0x40, 8), (0x8, 8)], 4, [⟨⟨0, 13⟩, .ro, 0, true, []⟩, ⟨⟨16, 13⟩, .ro, 0, true, []⟩, ⟨⟨29, 1⟩, .ro, 0, true, []⟩]⟩,
  -- MEM.DBW
  ⟨0xa00600, [(0x8, 8)], 4, [⟨⟨0, 6⟩, .ro, 0, true, []⟩, ⟨⟨8, 7⟩, .ro, 0, true, []⟩]⟩,
  -- MEM.DB
  ⟨0xa00700, [(0x8, 8)], 8, [⟨⟨0, 32⟩, .rc, 0, false, []⟩, ⟨⟨32, 16⟩, .rc, 0, false, []⟩]⟩,
  -- FAR.STATUS
  ⟨0xa80000, [(0x100, 4)], 4, [⟨⟨0, 1⟩, .ro, 0, false, []⟩, ⟨⟨1, 1⟩, .ro, 0, false, []⟩, ⟨⟨2, 1⟩, .ro, 0, false, []⟩, ⟨⟨8, 8⟩, .ro, 0, false, []⟩]⟩]

/-- Registers of the map, part 4. -/
def regMap4 : List RegDef := [
  -- FAR.CAP
  ⟨0xa80008, [(0x100, 4)], 4, [⟨⟨0, 14⟩, .ro, 0, false, []⟩]⟩,
  -- FAR.ERR
  ⟨0xa80010, [(0x100, 4)], 4, [⟨⟨0, 16⟩, .rc, 0, false, []⟩, ⟨⟨16, 16⟩, .rc, 0, false, []⟩]⟩,
  -- FAR.OUTST
  ⟨0xa80018, [(0x100, 4)], 4, [⟨⟨0, 11⟩, .ro, 0, false, []⟩, ⟨⟨16, 11⟩, .rc, 0, false, []⟩]⟩,
  -- FAR.WIN
  ⟨0xa80020, [(0x100, 4), (0x8, 8)], 4, [⟨⟨0, 13⟩, .ro, 0, true, []⟩, ⟨⟨16, 13⟩, .ro, 0, true, []⟩]⟩,
  -- SCK.NOW
  ⟨0x300000, [], 8, [⟨⟨0, 64⟩, .ro, 0, false, []⟩]⟩,
  -- SCK.CTL
  ⟨0x300008, [], 4, [⟨⟨0, 2⟩, .ro, 0, true, []⟩, ⟨⟨2, 1⟩, .ro, 0, true, []⟩]⟩,
  -- SCK.STATUS
  ⟨0x300010, [], 4, [⟨⟨0, 1⟩, .ro, 0, false, []⟩, ⟨⟨1, 1⟩, .ro, 0, false, []⟩, ⟨⟨2, 1⟩, .ro, 0, false, []⟩, ⟨⟨3, 1⟩, .ro, 0, false, []⟩, ⟨⟨4, 3⟩, .ro, 0, false, []⟩, ⟨⟨7, 1⟩, .ro, 0, false, []⟩, ⟨⟨8, 6⟩, .ro, 0, false, []⟩]⟩,
  -- SCK.ERROR
  ⟨0x300018, [], 8, [⟨⟨0, 32⟩, .ro, 0, false, []⟩]⟩,
  -- SCK.TOD
  ⟨0x300020, [], 8, [⟨⟨0, 64⟩, .wo, 0, false, []⟩]⟩,
  -- SCK.PTP_NS
  ⟨0x300028, [], 8, [⟨⟨0, 64⟩, .rw, 0, false, []⟩]⟩,
  -- SCK.PTP_AT
  ⟨0x300030, [], 8, [⟨⟨0, 64⟩, .wo, 0, false, []⟩]⟩,
  -- SCK.PTP_OFFSET
  ⟨0x300038, [], 8, [⟨⟨0, 64⟩, .rw, 0, false, []⟩]⟩,
  -- SCK.HEADLINE
  ⟨0x300100, [], 4, [⟨⟨0, 4⟩, .rw, 0, true, []⟩, ⟨⟨4, 1⟩, .ro, 0, false, []⟩, ⟨⟨8, 4⟩, .ro, 0, false, []⟩]⟩,
  -- SCK.SS_CTL
  ⟨0x300108, [], 8, [⟨⟨0, 6⟩, .rw, 0x10, false, [(0, 32)]⟩, ⟨⟨8, 4⟩, .rw, 2, false, [(0, 8)]⟩, ⟨⟨16, 12⟩, .rw, 0xb40, false, [(0, 3000)]⟩, ⟨⟨32, 16⟩, .rw, 0x100, false, [(16, 65535)]⟩]⟩,
  -- SCK.SHARE_WIN
  ⟨0x300110, [], 4, [⟨⟨0, 16⟩, .rw, 0x2710, false, [(100, 60000)]⟩]⟩,
  -- SCK.ACT
  ⟨0x300200, [(0x100, 9)], 4, [⟨⟨0, 2⟩, .ro, 0, false, []⟩, ⟨⟨2, 1⟩, .ro, 0, true, []⟩, ⟨⟨8, 8⟩, .rw, 0, true, []⟩]⟩,
  -- SCK.SEM_CAUSE
  ⟨0x300208, [(0x100, 9), (0x8, 2)], 8, [⟨⟨0, 64⟩, .rw, 0, true, []⟩]⟩,
  -- SCK.PHASE
  ⟨0x300218, [(0x100, 9)], 8, [⟨⟨0, 3⟩, .ro, 7, false, []⟩]⟩]

/-- Registers of the map, part 5. -/
def regMap5 : List RegDef := [
  -- SCK.PHASE_START
  ⟨0x300220, [(0x100, 9)], 8, [⟨⟨0, 64⟩, .ro, 0, false, []⟩]⟩,
  -- SCK.PHASE_TICKS
  ⟨0x300228, [(0x100, 9), (0x8, 7)], 8, [⟨⟨0, 64⟩, .ro, 0, false, []⟩]⟩,
  -- SCK.IDLE
  ⟨0x300260, [(0x100, 9), (0x8, 8)], 8, [⟨⟨0, 64⟩, .ro, 0, false, []⟩]⟩,
  -- SCK.SHARE
  ⟨0x3002a0, [(0x100, 9)], 8, [⟨⟨0, 16⟩, .ro, 0, false, []⟩, ⟨⟨16, 1⟩, .ro, 0, false, []⟩]⟩,
  -- SCK.PREEMPT
  ⟨0x3002a8, [(0x100, 9)], 8, [⟨⟨0, 32⟩, .rc, 0, false, []⟩, ⟨⟨32, 32⟩, .rc, 0, false, []⟩]⟩,
  -- CUE.FIRE_AT
  ⟨0x308000, [(0x20, 512)], 8, [⟨⟨0, 64⟩, .rw, 0, false, []⟩]⟩,
  -- CUE.CTL
  ⟨0x308008, [(0x20, 512)], 8, [⟨⟨0, 3⟩, .rw, 0, false, [(0, 4)]⟩, ⟨⟨3, 1⟩, .rw, 0, false, []⟩, ⟨⟨4, 4⟩, .ro, 0, true, []⟩, ⟨⟨8, 1⟩, .ro, 0, false, []⟩, ⟨⟨32, 32⟩, .ro, 0, false, []⟩]⟩,
  -- CUE.PERIOD
  ⟨0x308010, [(0x20, 512)], 8, [⟨⟨0, 64⟩, .rw, 0, false, [(0, 0), (1000, 18446744073709551615)]⟩]⟩,
  -- CUE.ARG
  ⟨0x308018, [(0x20, 512)], 8, [⟨⟨0, 64⟩, .rw, 0, false, []⟩]⟩,
  -- QM.QSEL
  ⟨0x400000000, [(0x100, 9)], 4, [⟨⟨0, 16⟩, .rw, 0, false, []⟩, ⟨⟨16, 1⟩, .rw, 0, false, []⟩]⟩,
  -- QM.Q_CFG
  ⟨0x100000008, [(0x10000, 65536)], 8, [⟨⟨0, 3⟩, .rw, 0, false, []⟩, ⟨⟨3, 1⟩, .rw, 0, false, []⟩, ⟨⟨4, 5⟩, .rw, 0, false, []⟩, ⟨⟨9, 2⟩, .rw, 0, false, []⟩, ⟨⟨11, 1⟩, .rw, 0, false, []⟩, ⟨⟨12, 1⟩, .rw, 0, false, []⟩, ⟨⟨13, 1⟩, .rw, 0, false, []⟩, ⟨⟨16, 8⟩, .rw, 0, false, []⟩, ⟨⟨32, 16⟩, .rw, 0, false, []⟩]⟩,
  -- QM.Q_BASE
  ⟨0x100000010, [(0x10000, 65536)], 8, [⟨⟨0, 64⟩, .rw, 0, false, []⟩]⟩,
  -- QM.Q_SHADOW
  ⟨0x100000018, [(0x10000, 65536)], 8, [⟨⟨0, 64⟩, .rw, 0, false, []⟩]⟩,
  -- QM.Q_PTR
  ⟨0x100000020, [(0x10000, 65536)], 8, [⟨⟨0, 32⟩, .ro, 0, false, []⟩, ⟨⟨32, 32⟩, .ro, 0, false, []⟩]⟩,
  -- QM.Q_STATE
  ⟨0x100000028, [(0x10000, 65536)], 8, [⟨⟨0, 3⟩, .ro, 0, false, []⟩, ⟨⟨3, 1⟩, .ro, 0, false, []⟩, ⟨⟨4, 1⟩, .w1c, 0, false, []⟩, ⟨⟨8, 8⟩, .ro, 0, false, []⟩]⟩,
  -- QM.Q_CTL
  ⟨0x100000030, [(0x10000, 65536)], 8, [⟨⟨0, 7⟩, .wo, 0, false, []⟩]⟩,
  -- QM.Q_RUNCNT
  ⟨0x100000038, [(0x10000, 65536)], 8, [⟨⟨0, 32⟩, .rw, 0, false, []⟩]⟩,
  -- QM.Q_PEER
  ⟨0x100000040, [(0x10000, 65536)], 8, [⟨⟨0, 16⟩, .rw, 0, false, []⟩, ⟨⟨16, 16⟩, .rw, 0, false, []⟩, ⟨⟨32, 2⟩, .rw, 0, false, []⟩, ⟨⟨34, 1⟩, .rw, 0, false, []⟩]⟩]

/-- Registers of the map, part 6. -/
def regMap6 : List RegDef := [
  -- QM.Q_DATA
  ⟨0x100000048, [(0x10000, 65536)], 8, [⟨⟨0, 64⟩, .rw, 0, false, []⟩]⟩,
  -- QM.Q_DATA_SIZE
  ⟨0x100000050, [(0x10000, 65536)], 8, [⟨⟨0, 32⟩, .rw, 0, false, []⟩]⟩,
  -- QM.APERTURE
  ⟨0x400000060, [(0x100, 9)], 8, [⟨⟨0, 48⟩, .rw, 0, false, []⟩]⟩,
  -- QM.ACT_RANGE
  ⟨0x401000, [(0x40, 9), (0x8, 4)], 8, [⟨⟨0, 10⟩, .ro, 0, true, []⟩, ⟨⟨16, 11⟩, .ro, 0, true, []⟩]⟩,
  -- QM.ACT_SEED
  ⟨0x401020, [(0x40, 9)], 8, [⟨⟨0, 64⟩, .rw, 0, true, []⟩]⟩,
  -- QM.ACT_EVQ
  ⟨0x401028, [(0x40, 9)], 8, [⟨⟨0, 16⟩, .rw, 0, false, []⟩, ⟨⟨16, 1⟩, .rw, 0, false, []⟩]⟩,
  -- EVT.QSTAT
  ⟨0x100001000, [(0x10000, 65536)], 8, [⟨⟨0, 32⟩, .rc, 0, false, []⟩, ⟨⟨32, 1⟩, .w1c, 0, false, []⟩]⟩,
  -- EVT.MOD
  ⟨0x100001008, [(0x10000, 65536)], 8, [⟨⟨0, 6⟩, .rw, 0, false, []⟩, ⟨⟨16, 10⟩, .rw, 0, false, []⟩, ⟨⟨32, 32⟩, .rw, 0, false, [(0, 0), (1000, 4000000000)]⟩]⟩,
  -- EVT.PENDING
  ⟨0x100001010, [(0x10000, 65536)], 8, [⟨⟨0, 11⟩, .ro, 0, false, []⟩]⟩,
  -- EVT.SEQ
  ⟨0x100001018, [(0x10000, 65536)], 8, [⟨⟨0, 32⟩, .ro, 0, false, []⟩]⟩,
  -- EVT.TEST
  ⟨0x500100, [], 8, [⟨⟨0, 64⟩, .wo, 0, false, []⟩]⟩,
  -- IN.SEQ
  ⟨0x100002000, [(0x10000, 65536)], 8, [⟨⟨0, 14⟩, .rw, 0, false, []⟩, ⟨⟨16, 8⟩, .rw, 0, false, []⟩, ⟨⟨32, 14⟩, .rw, 0, false, []⟩]⟩,
  -- IN.OUT
  ⟨0x100002008, [(0x10000, 65536)], 8, [⟨⟨0, 8⟩, .rw, 0x20, false, []⟩, ⟨⟨8, 1⟩, .rw, 0, false, []⟩, ⟨⟨9, 1⟩, .rw, 0, false, []⟩, ⟨⟨10, 1⟩, .rw, 0, false, []⟩, ⟨⟨11, 2⟩, .rw, 1, false, []⟩, ⟨⟨13, 2⟩, .rw, 0, false, []⟩, ⟨⟨16, 16⟩, .rw, 0, false, []⟩, ⟨⟨32, 12⟩, .rw, 0, false, []⟩]⟩,
  -- IN.TENSOR
  ⟨0x100002010, [(0x10000, 65536)], 8, [⟨⟨0, 32⟩, .rw, 0, false, []⟩]⟩,
  -- IN.BATCH_BASE
  ⟨0x100002018, [(0x10000, 65536)], 8, [⟨⟨0, 48⟩, .rw, 0, false, []⟩]⟩,
  -- IN.BATCH_CFG
  ⟨0x100002020, [(0x10000, 65536)], 8, [⟨⟨0, 8⟩, .rw, 0, false, []⟩, ⟨⟨32, 32⟩, .rw, 0, false, []⟩]⟩,
  -- IN.STAGE_BASE
  ⟨0x100002028, [(0x10000, 65536)], 8, [⟨⟨0, 48⟩, .rw, 0, false, []⟩]⟩,
  -- IN.WIN
  ⟨0x100002030, [(0x10000, 65536)], 8, [⟨⟨0, 11⟩, .rw, 0x400, false, []⟩, ⟨⟨32, 32⟩, .rw, 0, false, []⟩]⟩]

/-- Registers of the map, part 7. -/
def regMap7 : List RegDef := [
  -- IN.SEMS
  ⟨0x100002038, [(0x10000, 65536)], 8, [⟨⟨0, 6⟩, .rw, 0, false, []⟩, ⟨⟨8, 6⟩, .rw, 0, false, []⟩]⟩,
  -- IN.BUDGET
  ⟨0x100002040, [(0x10000, 65536)], 8, [⟨⟨0, 64⟩, .rw, 0, false, []⟩]⟩,
  -- IN.STALE
  ⟨0x100002048, [(0x10000, 65536)], 8, [⟨⟨0, 64⟩, .rw, 0, false, []⟩]⟩,
  -- IN.COLOUR
  ⟨0x100002050, [(0x10000, 65536)], 8, [⟨⟨0, 2⟩, .rw, 0, false, []⟩, ⟨⟨2, 1⟩, .rw, 0, false, []⟩, ⟨⟨3, 2⟩, .rw, 0, false, []⟩, ⟨⟨5, 1⟩, .rw, 0, false, []⟩]⟩,
  -- IN.AUDIO
  ⟨0x100002058, [(0x10000, 65536)], 8, [⟨⟨0, 17⟩, .rw, 0xbb80, false, []⟩, ⟨⟨17, 3⟩, .rw, 1, false, []⟩]⟩,
  -- IN.MEAN
  ⟨0x100002060, [(0x10000, 65536), (0x8, 4)], 8, [⟨⟨0, 32⟩, .rw, 0, false, []⟩]⟩,
  -- IN.SCALE
  ⟨0x100002080, [(0x10000, 65536), (0x8, 4)], 8, [⟨⟨0, 32⟩, .rw, 0x3f800000, false, []⟩]⟩,
  -- IN.STATUS
  ⟨0x100002100, [(0x10000, 65536)], 8, [⟨⟨0, 11⟩, .ro, 0, false, []⟩, ⟨⟨11, 1⟩, .ro, 0, false, []⟩, ⟨⟨12, 1⟩, .ro, 0, false, []⟩, ⟨⟨32, 32⟩, .ro, 0, false, []⟩]⟩,
  -- IN.BATCH
  ⟨0x100002108, [(0x10000, 65536)], 8, [⟨⟨0, 32⟩, .ro, 0, false, []⟩, ⟨⟨32, 32⟩, .ro, 0, false, []⟩]⟩,
  -- IN.VOIDS
  ⟨0x100002110, [(0x10000, 65536)], 8, [⟨⟨0, 16⟩, .rc, 0, false, []⟩, ⟨⟨16, 16⟩, .rc, 0, false, []⟩, ⟨⟨32, 16⟩, .rc, 0, false, []⟩, ⟨⟨48, 16⟩, .rc, 0, false, []⟩]⟩,
  -- IN.HEAD_WAIT
  ⟨0x100002118, [(0x10000, 65536)], 8, [⟨⟨0, 64⟩, .ro, 0, false, []⟩]⟩,
  -- IN.TIMING
  ⟨0x100002120, [(0x10000, 65536)], 8, [⟨⟨0, 1⟩, .w1c, 0, false, []⟩]⟩,
  -- MD.STATUS
  ⟨0x604000, [(0x1000, 2)], 8, [⟨⟨0, 6⟩, .ro, 0, false, []⟩, ⟨⟨8, 3⟩, .ro, 0, false, []⟩, ⟨⟨12, 3⟩, .ro, 0, false, []⟩, ⟨⟨16, 2⟩, .ro, 0, false, []⟩]⟩,
  -- MD.IMG_PIXELS
  ⟨0x604008, [(0x1000, 2)], 8, [⟨⟨0, 64⟩, .ro, 0, false, []⟩]⟩,
  -- MD.VID_PIXELS
  ⟨0x604010, [(0x1000, 2), (0x8, 2)], 8, [⟨⟨0, 64⟩, .ro, 0, false, []⟩]⟩,
  -- MD.AUD_SAMPLES
  ⟨0x604020, [(0x1000, 2)], 8, [⟨⟨0, 64⟩, .ro, 0, false, []⟩]⟩,
  -- MD.ERR
  ⟨0x604028, [(0x1000, 2)], 8, [⟨⟨0, 16⟩, .rc, 0, false, []⟩, ⟨⟨16, 16⟩, .rc, 0, false, []⟩]⟩,
  -- TOK.STATUS
  ⟨0x608000, [(0x1000, 2)], 8, [⟨⟨0, 2⟩, .ro, 0, false, []⟩]⟩]

/-- Registers of the map, part 8. -/
def regMap8 : List RegDef := [
  -- TOK.BYTES
  ⟨0x608008, [(0x1000, 2)], 8, [⟨⟨0, 64⟩, .ro, 0, false, []⟩]⟩,
  -- TOK.TOKENS
  ⟨0x608010, [(0x1000, 2)], 8, [⟨⟨0, 64⟩, .ro, 0, false, []⟩]⟩,
  -- TS.SLOT
  ⟨0x700000, [(0x20, 36)], 8, [⟨⟨0, 8⟩, .ro, 0xff, false, []⟩, ⟨⟨8, 1⟩, .ro, 0, false, []⟩, ⟨⟨16, 8⟩, .ro, 0, false, []⟩, ⟨⟨24, 1⟩, .ro, 0, false, []⟩, ⟨⟨25, 1⟩, .ro, 0, false, []⟩, ⟨⟨28, 4⟩, .ro, 0, true, []⟩, ⟨⟨32, 32⟩, .ro, 0, false, []⟩]⟩,
  -- TS.REFS
  ⟨0x700008, [(0x20, 36)], 8, [⟨⟨0, 32⟩, .ro, 0, false, []⟩, ⟨⟨32, 32⟩, .ro, 0, false, []⟩]⟩,
  -- TS.SIZE
  ⟨0x700010, [(0x20, 36)], 8, [⟨⟨0, 32⟩, .ro, 0, false, []⟩]⟩,
  -- CAR.STATUS
  ⟨0x800000, [(0x20000, 2)], 8, [⟨⟨0, 8⟩, .ro, 0, false, []⟩]⟩,
  -- CAR.BLOCKS_TX
  ⟨0x800008, [(0x20000, 2)], 8, [⟨⟨0, 64⟩, .ro, 0, false, []⟩]⟩,
  -- CAR.BLOCKS_RX
  ⟨0x800010, [(0x20000, 2)], 8, [⟨⟨0, 64⟩, .ro, 0, false, []⟩]⟩,
  -- CAR.RETRY
  ⟨0x800018, [(0x20000, 2)], 8, [⟨⟨0, 16⟩, .rc, 0, false, []⟩, ⟨⟨16, 16⟩, .rc, 0, false, []⟩, ⟨⟨32, 32⟩, .rc, 0, false, []⟩]⟩,
  -- CAR.SLOT_SEL
  ⟨0x800020, [(0x20000, 2)], 8, [⟨⟨0, 7⟩, .rw, 0, false, []⟩]⟩,
  -- CAR.SLOT
  ⟨0x800028, [(0x20000, 2)], 8, [⟨⟨0, 16⟩, .ro, 0, false, []⟩, ⟨⟨16, 3⟩, .ro, 0, false, []⟩, ⟨⟨19, 1⟩, .ro, 0, false, []⟩, ⟨⟨20, 4⟩, .ro, 0, false, []⟩, ⟨⟨24, 4⟩, .ro, 0, false, []⟩, ⟨⟨32, 32⟩, .ro, 0, false, []⟩]⟩,
  -- CAR.BKT_CTL
  ⟨0x880000, [(0x100, 9)], 4, [⟨⟨0, 2⟩, .rw, 0, true, []⟩, ⟨⟨2, 1⟩, .rw, 0, false, []⟩, ⟨⟨3, 1⟩, .rw, 0, false, []⟩, ⟨⟨4, 3⟩, .rw, 2, false, []⟩]⟩,
  -- CAR.TABLE
  ⟨0x880008, [(0x100, 9)], 8, [⟨⟨0, 48⟩, .ro, 0, true, []⟩]⟩,
  -- CAR.HP
  ⟨0x880010, [(0x100, 9)], 8, [⟨⟨0, 48⟩, .ro, 0, true, []⟩]⟩,
  -- CAR.SCRATCH
  ⟨0x880018, [(0x100, 9)], 8, [⟨⟨0, 48⟩, .ro, 0, true, []⟩]⟩,
  -- CAR.SCRATCH_SIZE
  ⟨0x880020, [(0x100, 9)], 8, [⟨⟨0, 32⟩, .ro, 0, true, []⟩]⟩,
  -- CAR.PEER_NS
  ⟨0x880028, [(0x100, 9)], 8, [⟨⟨0, 64⟩, .rw, 0, false, []⟩]⟩,
  -- CAR.WAIT
  ⟨0x880030, [(0x100, 9), (0x8, 2)], 8, [⟨⟨0, 64⟩, .ro, 0, false, []⟩]⟩]

/-- Registers of the map, part 9. -/
def regMap9 : List RegDef := [
  -- CAR.POISON
  ⟨0x880040, [(0x100, 9)], 8, [⟨⟨0, 1⟩, .w1c, 0, false, []⟩, ⟨⟨16, 16⟩, .ro, 0, false, []⟩, ⟨⟨32, 32⟩, .ro, 0, false, []⟩]⟩,
  -- CAR.POISON_POS
  ⟨0x880048, [(0x100, 9)], 8, [⟨⟨0, 32⟩, .ro, 0, false, []⟩, ⟨⟨32, 16⟩, .ro, 0, false, []⟩]⟩,
  -- OPT.STATUS
  ⟨0x840000, [(0x10000, 2)], 8, [⟨⟨0, 1⟩, .ro, 0, false, []⟩, ⟨⟨1, 1⟩, .ro, 0, false, []⟩]⟩,
  -- OPT.UPDATED
  ⟨0x840008, [(0x10000, 2)], 8, [⟨⟨0, 64⟩, .ro, 0, false, []⟩]⟩,
  -- OPT.HELD
  ⟨0x840010, [(0x10000, 2)], 8, [⟨⟨0, 64⟩, .ro, 0, false, []⟩]⟩,
  -- OPT.BUSY_TICKS
  ⟨0x840018, [(0x10000, 2)], 8, [⟨⟨0, 64⟩, .ro, 0, false, []⟩]⟩,
  -- FAB.SELF
  ⟨0x900000, [], 8, [⟨⟨0, 16⟩, .ro, 0, true, []⟩, ⟨⟨16, 1⟩, .ro, 0, true, []⟩, ⟨⟨32, 16⟩, .ro, 0, true, []⟩, ⟨⟨48, 1⟩, .ro, 0, true, []⟩]⟩,
  -- FAB.EXTENT
  ⟨0x900008, [], 8, [⟨⟨0, 4⟩, .ro, 0, true, []⟩, ⟨⟨4, 4⟩, .ro, 0, true, []⟩, ⟨⟨8, 4⟩, .ro, 0, true, []⟩, ⟨⟨12, 4⟩, .ro, 0, true, []⟩]⟩,
  -- FAB.ID
  ⟨0x900010, [], 8, [⟨⟨0, 64⟩, .ro, 0, true, []⟩]⟩,
  -- FAB.CRYPTO
  ⟨0x900018, [], 8, [⟨⟨0, 1⟩, .ro, 0, true, []⟩, ⟨⟨1, 1⟩, .ro, 0, false, []⟩]⟩,
  -- FAB.FAULTS
  ⟨0x900020, [], 8, [⟨⟨0, 10⟩, .ro, 0, false, []⟩, ⟨⟨10, 1⟩, .ro, 0, false, []⟩]⟩,
  -- FAB.FAULT_SEL
  ⟨0x900028, [], 8, [⟨⟨0, 9⟩, .rw, 0, false, []⟩]⟩,
  -- FAB.FAULT
  ⟨0x900030, [], 8, [⟨⟨0, 16⟩, .ro, 0, false, []⟩, ⟨⟨16, 3⟩, .ro, 0, false, []⟩, ⟨⟨19, 3⟩, .ro, 0, false, []⟩, ⟨⟨22, 1⟩, .ro, 0, false, []⟩, ⟨⟨32, 32⟩, .ro, 0, false, []⟩]⟩,
  -- FAB.DROPS
  ⟨0x900040, [], 8, [⟨⟨0, 32⟩, .rc, 0, false, []⟩, ⟨⟨32, 32⟩, .rc, 0, false, []⟩]⟩,
  -- FAB.REMAP
  ⟨0x900100, [(0x8, 64)], 8, [⟨⟨0, 16⟩, .ro, 0, false, []⟩, ⟨⟨16, 16⟩, .ro, 0, false, []⟩, ⟨⟨32, 1⟩, .ro, 0, false, []⟩]⟩,
  -- LNK.STATUS
  ⟨0x980000, [(0x1000, 8)], 8, [⟨⟨0, 3⟩, .ro, 0, false, []⟩, ⟨⟨3, 1⟩, .ro, 0, false, []⟩, ⟨⟨4, 4⟩, .ro, 0, false, []⟩, ⟨⟨8, 8⟩, .ro, 0, false, []⟩, ⟨⟨16, 16⟩, .ro, 0, false, []⟩, ⟨⟨32, 3⟩, .ro, 0, false, []⟩]⟩,
  -- LNK.CTL
  ⟨0x980008, [(0x1000, 8)], 8, [⟨⟨0, 1⟩, .wo, 0, false, []⟩, ⟨⟨1, 1⟩, .rw, 0, false, []⟩, ⟨⟨32, 16⟩, .rw, 0x2000, false, [(64, 65535)]⟩]⟩,
  -- LNK.CREDIT_NS
  ⟨0x980010, [(0x1000, 8)], 8, [⟨⟨0, 32⟩, .rw, 0xc350, false, [(1000, 10000000)]⟩]⟩]

/-- Registers of the map, part 10. -/
def regMap10 : List RegDef := [
  -- LNK.PARTNER_SERIAL
  ⟨0x980018, [(0x1000, 8)], 8, [⟨⟨0, 64⟩, .ro, 0, false, []⟩]⟩,
  -- LNK.FEC
  ⟨0x980020, [(0x1000, 8)], 8, [⟨⟨0, 32⟩, .rc, 0, false, []⟩, ⟨⟨32, 32⟩, .rc, 0, false, []⟩]⟩,
  -- LNK.RETRY
  ⟨0x980028, [(0x1000, 8)], 8, [⟨⟨0, 16⟩, .rc, 0, false, []⟩, ⟨⟨16, 16⟩, .rc, 0, false, []⟩, ⟨⟨32, 16⟩, .rc, 0, false, []⟩]⟩,
  -- LNK.HOSTILE
  ⟨0x980030, [(0x1000, 8)], 8, [⟨⟨0, 16⟩, .rc, 0, false, []⟩, ⟨⟨16, 16⟩, .rc, 0, false, []⟩, ⟨⟨32, 16⟩, .rc, 0, false, []⟩]⟩,
  -- LNK.TIME
  ⟨0x980038, [(0x1000, 8)], 8, [⟨⟨0, 32⟩, .ro, 0, false, []⟩, ⟨⟨32, 32⟩, .rw, 0, true, []⟩]⟩,
  -- LNK.VC
  ⟨0x980040, [(0x1000, 8), (0x8, 4)], 8, [⟨⟨0, 10⟩, .ro, 0, false, []⟩, ⟨⟨16, 10⟩, .ro, 0, false, []⟩]⟩,
  -- LNK.BYTES_TX
  ⟨0x980060, [(0x1000, 8)], 8, [⟨⟨0, 64⟩, .ro, 0, false, []⟩]⟩,
  -- LNK.BYTES_RX
  ⟨0x980068, [(0x1000, 8)], 8, [⟨⟨0, 64⟩, .ro, 0, false, []⟩]⟩,
  -- LNK.DEGRADES
  ⟨0x980070, [(0x1000, 8)], 8, [⟨⟨0, 8⟩, .ro, 0, false, []⟩]⟩,
  -- NET.CTL
  ⟨0xb00000, [], 8, [⟨⟨0, 16⟩, .rw, 0x3e8, false, [(10, 65535)]⟩, ⟨⟨16, 16⟩, .rw, 0x40, false, [(1, 65535)]⟩, ⟨⟨32, 16⟩, .rw, 0xe10, false, []⟩]⟩,
  -- NET.STATUS
  ⟨0xb00008, [], 8, [⟨⟨0, 8⟩, .ro, 0x10, false, []⟩, ⟨⟨8, 8⟩, .ro, 0, false, []⟩, ⟨⟨16, 8⟩, .ro, 0, false, []⟩, ⟨⟨24, 1⟩, .ro, 0, false, []⟩, ⟨⟨25, 1⟩, .ro, 0, false, []⟩]⟩,
  -- NET.HB
  ⟨0xb00010, [], 8, [⟨⟨0, 32⟩, .rw, 0x186a0, false, [(10000, 4294967295)]⟩, ⟨⟨32, 32⟩, .rw, 0xf4240, false, []⟩]⟩,
  -- NET.WARDEN
  ⟨0xb00018, [], 8, [⟨⟨0, 16⟩, .ro, 0, true, []⟩, ⟨⟨16, 16⟩, .ro, 0, true, []⟩]⟩,
  -- NET.CKPT
  ⟨0xb00020, [], 8, [⟨⟨0, 16⟩, .ro, 0, true, []⟩, ⟨⟨16, 2⟩, .ro, 0, true, []⟩, ⟨⟨18, 4⟩, .ro, 0, true, []⟩, ⟨⟨32, 32⟩, .ro, 0xffffffff, false, []⟩]⟩,
  -- NET.AREA
  ⟨0xb00028, [(0x8, 4)], 8, [⟨⟨0, 48⟩, .ro, 0, true, []⟩, ⟨⟨48, 3⟩, .ro, 0, true, []⟩]⟩,
  -- NET.ROLLBACK
  ⟨0xb00048, [], 8, [⟨⟨0, 32⟩, .ro, 0, false, []⟩, ⟨⟨32, 32⟩, .ro, 0, false, []⟩]⟩,
  -- NET.CKPT_REGION
  ⟨0xb00050, [(0x8, 8)], 8, [⟨⟨0, 48⟩, .ro, 0, true, []⟩, ⟨⟨48, 16⟩, .ro, 0, true, []⟩]⟩,
  -- NET.CORE
  ⟨0xb00100, [(0x8, 208)], 8, [⟨⟨0, 3⟩, .ro, 0, false, []⟩, ⟨⟨4, 8⟩, .ro, 0, false, []⟩, ⟨⟨12, 8⟩, .ro, 0, false, []⟩, ⟨⟨20, 4⟩, .ro, 0, false, []⟩, ⟨⟨24, 8⟩, .ro, 0, false, []⟩, ⟨⟨32, 32⟩, .ro, 0, false, []⟩]⟩]

/-- Registers of the map, part 11. -/
def regMap11 : List RegDef := [
  -- NET.CORE_CMD
  ⟨0xb00800, [], 8, [⟨⟨0, 8⟩, .wo, 0, false, []⟩, ⟨⟨8, 2⟩, .wo, 0, false, []⟩]⟩,
  -- NET.RAIL
  ⟨0xb00900, [(0x8, 14)], 8, [⟨⟨0, 16⟩, .ro, 0, false, []⟩, ⟨⟨16, 1⟩, .w1c, 0, false, []⟩, ⟨⟨17, 1⟩, .ro, 0, false, []⟩]⟩,
  -- NET.TEMP
  ⟨0xb00980, [(0x8, 10)], 8, [⟨⟨0, 16⟩, .ro, 0, false, []⟩, ⟨⟨16, 2⟩, .ro, 0, false, []⟩]⟩,
  -- BBX.CTL
  ⟨0xb80000, [], 8, [⟨⟨0, 1⟩, .wo, 0, false, []⟩, ⟨⟨1, 1⟩, .wo, 0, false, []⟩]⟩,
  -- BBX.STATUS
  ⟨0xb80008, [], 8, [⟨⟨0, 1⟩, .ro, 0, false, []⟩, ⟨⟨1, 3⟩, .ro, 0, false, []⟩, ⟨⟨32, 32⟩, .ro, 0, false, []⟩]⟩,
  -- BBX.FREEZE_AT
  ⟨0xb80010, [], 8, [⟨⟨0, 64⟩, .ro, 0, false, []⟩]⟩,
  -- BBX.LOST
  ⟨0xb80018, [], 8, [⟨⟨0, 32⟩, .rc, 0, false, []⟩, ⟨⟨32, 32⟩, .rc, 0, false, []⟩]⟩,
  -- BBX.FLASH
  ⟨0xb80020, [], 8, [⟨⟨0, 18⟩, .ro, 0, false, []⟩, ⟨⟨32, 32⟩, .ro, 0, false, []⟩]⟩,
  -- BBX.FLASH_SEL
  ⟨0xb80028, [], 8, [⟨⟨0, 18⟩, .rw, 0, false, []⟩]⟩,
  -- BBX.FLASH_DATA
  ⟨0xb80040, [(0x8, 4)], 8, [⟨⟨0, 64⟩, .ro, 0, false, []⟩]⟩,
  -- BBX.ENTRY
  ⟨0xb81000, [(0x20, 4096), (0x8, 4)], 8, [⟨⟨0, 64⟩, .ro, 0, false, []⟩]⟩,
  -- BOOT.STATUS
  ⟨0x100000, [], 8, [⟨⟨0, 2⟩, .ro, 0, false, []⟩, ⟨⟨2, 1⟩, .ro, 0, false, []⟩, ⟨⟨3, 1⟩, .ro, 0, false, []⟩, ⟨⟨4, 4⟩, .ro, 0, false, []⟩, ⟨⟨8, 4⟩, .ro, 0, false, []⟩, ⟨⟨12, 2⟩, .ro, 0, false, []⟩, ⟨⟨32, 32⟩, .ro, 0, false, []⟩]⟩,
  -- BOOT.FUSE
  ⟨0x100008, [], 8, [⟨⟨0, 4⟩, .ro, 0, false, []⟩, ⟨⟨4, 4⟩, .ro, 0, false, []⟩]⟩,
  -- BOOT.RESULT
  ⟨0x100010, [], 8, [⟨⟨0, 8⟩, .ro, 0, false, []⟩, ⟨⟨32, 32⟩, .ro, 0, false, []⟩]⟩,
  -- BOOT.TIMES
  ⟨0x100018, [], 8, [⟨⟨0, 32⟩, .ro, 0, false, []⟩, ⟨⟨32, 32⟩, .ro, 0, false, []⟩]⟩,
  -- BOOT.CTL
  ⟨0x100020, [], 8, [⟨⟨0, 16⟩, .wo, 0, false, []⟩]⟩,
  -- BOOT.FLASH_ADDR
  ⟨0x100100, [], 8, [⟨⟨0, 26⟩, .rw, 0, false, []⟩]⟩,
  -- BOOT.FLASH_CMD
  ⟨0x100108, [], 8, [⟨⟨0, 2⟩, .wo, 0, false, []⟩, ⟨⟨8, 1⟩, .ro, 0, false, []⟩, ⟨⟨9, 1⟩, .w1c, 0, false, []⟩]⟩]

/-- Registers of the map, part 12. -/
def regMap12 : List RegDef := [
  -- BOOT.FLASH_BUF
  ⟨0x100200, [(0x8, 32)], 8, [⟨⟨0, 64⟩, .rw, 0, false, []⟩]⟩,
  -- PWR.STATUS
  ⟨0x200000, [], 8, [⟨⟨0, 3⟩, .ro, 2, false, []⟩, ⟨⟨3, 1⟩, .ro, 0, false, []⟩, ⟨⟨4, 2⟩, .ro, 0, false, []⟩]⟩,
  -- PWR.INPUT
  ⟨0x200008, [], 8, [⟨⟨0, 32⟩, .ro, 0, false, []⟩, ⟨⟨32, 32⟩, .ro, 0, false, []⟩]⟩,
  -- PWR.POWER
  ⟨0x200010, [], 8, [⟨⟨0, 16⟩, .ro, 0, false, []⟩, ⟨⟨16, 16⟩, .ro, 0, false, []⟩, ⟨⟨32, 16⟩, .rc, 0, false, []⟩]⟩,
  -- PWR.CAP
  ⟨0x200018, [], 8, [⟨⟨0, 12⟩, .rw, 0xe10, false, [(1800, 3600)]⟩]⟩,
  -- PWR.ENERGY
  ⟨0x200020, [], 8, [⟨⟨0, 64⟩, .ro, 0, false, []⟩]⟩,
  -- PWR.THROTTLED
  ⟨0x200028, [], 8, [⟨⟨0, 64⟩, .ro, 0, false, []⟩]⟩,
  -- PWR.COOLANT
  ⟨0x200030, [], 8, [⟨⟨0, 16⟩, .ro, 0, false, []⟩, ⟨⟨16, 16⟩, .ro, 0, false, []⟩]⟩,
  -- MGT.SERIAL
  ⟨0x204000, [], 8, [⟨⟨0, 64⟩, .ro, 0, false, []⟩]⟩,
  -- MGT.SMB
  ⟨0x204008, [], 8, [⟨⟨0, 7⟩, .ro, 0, false, []⟩, ⟨⟨8, 8⟩, .ro, 0, false, []⟩, ⟨⟨16, 1⟩, .ro, 0, false, []⟩, ⟨⟨17, 2⟩, .ro, 0, false, []⟩]⟩,
  -- MGT.ERR
  ⟨0x204010, [], 8, [⟨⟨0, 16⟩, .rc, 0, false, []⟩]⟩,
  -- PRB.CHALLENGE
  ⟨0x208000, [(0x8, 4)], 8, [⟨⟨0, 64⟩, .ro, 0, false, []⟩]⟩,
  -- PRB.TOKEN
  ⟨0x208100, [(0x8, 36)], 8, [⟨⟨0, 64⟩, .wo, 0, false, []⟩]⟩,
  -- PRB.CMD
  ⟨0x208400, [], 8, [⟨⟨0, 2⟩, .wo, 0, false, []⟩]⟩,
  -- PRB.STATUS
  ⟨0x208408, [], 8, [⟨⟨0, 1⟩, .ro, 0, false, []⟩, ⟨⟨1, 3⟩, .ro, 0, false, []⟩]⟩,
  -- PRB.EXPIRY
  ⟨0x208410, [], 8, [⟨⟨0, 64⟩, .ro, 0, false, []⟩]⟩,
  -- PRB.SEL
  ⟨0x208500, [(0x8, 8)], 8, [⟨⟨0, 4⟩, .rw, 0, false, []⟩, ⟨⟨8, 8⟩, .rw, 0, false, []⟩]⟩]

/-- The whole register map. -/
def regMap : List RegDef :=
  regMap1 ++ regMap2 ++ regMap3 ++ regMap4 ++ regMap5 ++ regMap6 ++ regMap7 ++ regMap8 ++ regMap9 ++ regMap10 ++ regMap11 ++ regMap12

/-- Whether a key at distance `d` from a register's first copy is a copy of it. The dimensions stand with
the larger stride first, and each stride is larger than the extent of those after it. -/
def dimsHit : List (Nat × Nat) → Nat → Bool
  | [], d => d == 0
  | (st, n) :: ds, d => decide (d / st < n) && dimsHit ds (d % st)

/-- The register a key names. -/
def findReg (key : Nat) : Option RegDef :=
  regMap.find? fun r => decide (r.base ≤ key) && dimsHit r.dims (key - r.base)

end Sys2Proof.Machine
end

