-- ==== Sys2Proof/Machine/State.lean ====
section
/-! DEFINITION. The state of the module as plain data: the register file, the memories of every level, the
cores, the queues, the engines of the Midways, the fabric ports, the Safety Net's and the start-up's own
state, and the queue of waiting commands. Sparse memories are lists of (key, value) in one canonical form
(Machine/Sparse.lean). -/

namespace Sys2Proof.Machine

/-- Why a command can stop the machine. -/
inductive Fault where
  /-- Raised by the commands that name a core, port, queue, function, act, stack or other unit by number,
  when the number lies outside the spec's numbering (R18, R20, R219, R223): no such unit exists. Safe: no
  hardware could receive the command. -/
  | noSuchUnit
  deriving DecidableEq, Repr

/-- Why a command is refused. No meaning of this model answers with it. -/
inductive Refusal where
  /-- Raised by exec for a command that has no meaning yet, with its mnemonic. Safe: nothing is claimed. -/
  | notModelled (mnemonic : String)
  deriving DecidableEq, Repr

/-- What the part's fuses, straps and manufacture fix (R1, R3, R19; BOOT.FUSE, MGT.SERIAL). Bit n of a map
stands for physical core n. `chainRoots` is the hash of the Oxvas key of R370. -/
structure Fuses where
  grade : Nat
  stepping : Nat
  enabled : BitVec 208
  spares : BitVec 208
  serial : Word64
  addrStraps : BitVec 3
  keyValid : BitVec 4
  keyRevoked : BitVec 4
  keyHash : List Bytes
  oxvasHash : Bytes
  deriving DecidableEq, Repr

/-- An exact dyadic number `m × 2^e`, the value of a code, a scale or a binary32. -/
structure Dy where
  m : Int
  e : Int
  deriving DecidableEq, Repr

/-- One operand element as an array port sees it (R81 to R83): its code value, or the OX16 code in the side list of an
escaped element (R50), or NaN. -/
inductive Opd where
  | val (v : Dy)
  | esc (code : Nat)
  | nan
  deriving DecidableEq, Repr

/-- An operand element with its group's OXS scale code and whether the group is poisoned (R49, R51). A plain
element carries the scale 0xA0, which is 1.0 (R76). -/
structure El where
  scale : Nat
  poison : Bool
  x : Opd
  deriving DecidableEq, Repr

/-- A tensor view (Table 5.7). -/
structure View where
  elem : Nat
  scale : Nat
  elemPitch : Nat
  side : Nat
  scalePitch : Nat
  sidePitch : Nat
  fmt : Nat
  packed : Bool
  deriving DecidableEq, Repr

/-- One dimension of a generator block (R153). -/
structure GenDim where
  i : Nat
  k : Nat
  s : Nat
  l : Nat
  plo : Nat
  phi : Nat
  deriving DecidableEq, Repr

/-- A generator block (R126, R153). -/
structure GenBlock where
  d : GenDim
  h : GenDim
  w : GenDim
  c : Nat
  c32 : Bool
  transpose : Bool
  oneTap : Bool
  tap : Nat
  dims : Nat
  wgtPort : Bool
  deriving DecidableEq, Repr

/-- Where a product stands in its pass (R77 to R79). -/
inductive PPhase where
  | queued | loading | streaming | draining
  deriving DecidableEq, Repr

/-- A product from its issue until its last write (R139, R151, R152), with the weights its load entered. -/
structure Product where
  idx : Nat
  ctx : Nat
  act : Nat
  off : Nat
  tag : Word32
  arrays : BitVec 4
  mode : Nat
  mirAct : Bool
  mirWgt : Bool
  gen : Option GenBlock
  acd : Option Nat
  aview : View
  wview : View
  rows : Nat
  kp : Nat
  row0 : Nat
  k0 : Nat
  wrow : Nat
  wstep : Nat
  dest : Nat
  dstep : Int
  pitch : Nat
  phase : PPhase
  row : Nat
  weights : List (List (List El))
  deriving DecidableEq, Repr

/-- The weight tile that an engine's arrays hold since its last load: the product that loaded it (R78, R90). -/
abbrev LoadedTile := Product

/-- An expander port (R96, R97): the byte offset of the next block header from the operand's base, the
expanded elements that wait, the element index of the first of them, the tables in the cache, the table
being fetched, and whether its operand has ended. -/
structure Xp where
  pos : Nat
  first : Nat
  elems : List El
  cache : List (Nat × Nat)
  fetching : Option (Nat × Nat)
  ended : Bool
  deriving DecidableEq, Repr

/-- One level of the loop stack (R144): latched count, iteration index, the word positions of the body's
first and last bundles. -/
structure LoopLvl where
  count : Nat
  index : Nat
  first : Nat
  last : Nat
  deriving DecidableEq, Repr

/-- What the CTRL slot asks of the bundle's retirement (R142, R144, R145). -/
inductive CtlEffect where
  | seq
  | jump (word : Nat)
  | enter (count first last : Nat)
  | leave
  deriving DecidableEq, Repr

/-- A bundle that has been decoded and issued and has not yet retired: its place, header and tag, the slots
still to run in ascending order, and the scalar registers and predicates as they stood before it (R139). -/
structure OpenBundle where
  word : Nat
  length : Nat
  off : Nat
  flags : BitVec 8
  tag : Word32
  step : Nat
  todo : List (Nat × Word64)
  sregs : List (Nat × Word64)
  preds : BitVec 8
  ctl : CtlEffect
  deriving DecidableEq, Repr

/-- The content of a resume record (R159), with the poison marks of the regions it holds. -/
structure ResumeRec where
  word : Nat
  off : Nat
  sregs : List (Nat × Word64)
  preds : BitVec 8
  loops : List LoopLvl
  step : Nat
  acds : List (Word64 × Word64)
  regions : List (Nat × Word32)
  marks : List Nat
  copyCons : List (Nat × Nat)
  deriving DecidableEq, Repr

/-- The states of a stream context (Table 5.14, STATE). -/
inductive SeqState where
  | issuing | waitSlot | waitScalar | waitFence | waitSem | waitCue | waitRecv | waitFetch | halted
  | preempted | noStream
  deriving DecidableEq, Repr

/-- A WAIT that waits (R157, R158): semaphore, amount, deadline, the predicate, its bundle's offset and tag, the tick in
which the wait began. -/
structure SemWait where
  sem : Nat
  n : Nat
  deadline : Option Nat
  pd : Nat
  off : Nat
  tag : Word32
  began : Nat
  deriving DecidableEq, Repr

/-- A SIGNAL issued and not yet applied (R157). -/
structure SigWait where
  sem : Nat
  n : Nat
  off : Nat
  word : Nat
  tag : Word32
  deriving DecidableEq, Repr

/-- A BUCKET handover that waits (R277), with the step number in force when its bundle issued (R147, R157). -/
structure BucketWait where
  acd : Nat
  tag : Nat
  off : Nat
  step : Nat
  deriving DecidableEq, Repr

/-- A COPY or DRAIN descriptor as read (Tables 6.2 and 6.3), kept as its four 64-bit words. -/
structure Desc where
  w0 : Word64
  w1 : Word64
  w2 : Word64
  w3 : Word64
  deriving DecidableEq, Repr

/-- The kinds of transfer. -/
inductive XKind where
  | din | dout | drain
  deriving DecidableEq, Repr

/-- A DIN, DOUT or DRAIN in flight (R139): its bundle, its slot fields, its first descriptor and where in the stage
buffer it stands, the physical bases of its context's stage and accumulator regions, whether its ranges are checked
against windows (R180), the ranges of the stage buffer that a packed one has written and released block by block (R184),
whether a DRAIN has been converted and a copy message sent, and how many far requests have
been made and which far units came to nothing (R190). -/
structure Xfer where
  idx : Nat
  kind : XKind
  ctx : Nat
  act : Nat
  checked : Bool
  off : Nat
  word : Nat
  tag : Word32
  step : Nat
  seed : Word64
  sbase : Nat
  abase : Nat
  space : Nat
  packed : Bool
  landed : List (Nat × Nat)
  at_ : Nat
  desc : Desc
  chain : Nat
  slot : Word64
  sc : Word64
  converted : Bool
  sent : Bool
  farNext : Nat
  farBad : List Nat
  deriving DecidableEq, Repr

/-- A resident-library function that runs for a stream (R163): its number, its argument, and the context that the
library table names for it (Table 5.11). -/
structure LibCall where
  fn : Nat
  arg : Word64
  context : Nat
  deriving DecidableEq, Repr

/-- A stream context of a core (R168). -/
structure SeqCtx where
  queue : Option Nat
  kind : Nat
  act : Nat
  near : Bool
  base : Nat
  words : Nat
  entry : Nat
  resume : Nat
  resumeKib : Nat
  word : Nat
  off : Nat
  step : Nat
  seed : Word64
  sregs : List (Nat × Word64)
  preds : BitVec 8
  loops : List LoopLvl
  state : SeqState
  cur : Option OpenBundle
  sigs : List SigWait
  wait : Option SemWait
  cueWait : Option (Nat × Nat)
  bucketWait : Option BucketWait
  lib : Option LibCall
  notifies : List (Nat × Word32)
  fetched : Nat
  ended : Bool
  conds : List (Nat × Word32)
  syncDone : Bool
  reload : Bool
  lastIssue : Nat
  lastAct : Option Nat
  copyCons : List (Nat × Nat)
  deriving DecidableEq, Repr

/-- The context in which a stream context runs (Table 5.11): a library function's own while one runs (R163). -/
def SeqCtx.runKind (c : SeqCtx) : Nat := match c.lib with | some l => l.context | none => c.kind

/-- The sort unit (R115): the load buffer's filled positions, each with its key and its index if a register gave
one; how many positions are used; the block being sorted; the retained list; the running operation (whether a
MERGE, key mode, descending); the positions of the segment before the load buffer; the next pair of SORT.OUT. -/
structure SortUnit where
  load : List (Nat × Word32 × Option Word32)
  filled : Nat
  block : List (Word32 × Word32)
  retained : List (Word32 × Word32)
  running : Option (Bool × Nat × Bool)
  position : Nat
  outPos : Nat
  deriving DecidableEq, Repr

/-- What a queued unit operation will read and write: stage-buffer bytes and accumulator entries, as physical ranges. -/
structure Foot where
  reads : List (Nat × Nat)
  writes : List (Nat × Nat)
  accReads : List (Nat × Nat)
  accWrites : List (Nat × Nat)
  deriving DecidableEq, Repr

/-- An operation in the issue queue of the vector or row engine (R139): its context, its bundle as it issued, its slot
word, its place in the order of the core's work, and what it will touch. -/
structure UnitOp where
  ctx : Nat
  b : OpenBundle
  w : Word64
  idx : Nat
  foot : Foot
  deriving DecidableEq, Repr

/-- A core (R168; 01_architecture.md, The core): what it holds beside its registers in the register file. `packEnds` are
the stage addresses just past the last byte of packed transfers (R184); `testing` is the act, logical core and die for
which a spare is tested (R339); `recover` the queues whose streams a RECOVER stream resumes here (R340); `leaving` the logical core that a
doubled core turns away from (R341); `progressAt`
the last tick in which a unit completed something or a stream began to run again (R336). -/
structure Core where
  accSplit : Nat
  sbSideshow : Nat
  accSs : Nat
  sideSs : Nat
  resInject : Bool
  ctx0 : SeqCtx
  ctx1 : SeqCtx
  fwd : List Product
  bwd : List Product
  vecq : List UnitOp
  rowq : List UnitOp
  loaded : List (Nat × LoadedTile)
  xps : List (Nat × Xp)
  xfers : List Xfer
  nextXfer : Nat
  stage : List Host.Cell
  stagePoison : List (Nat × Bool)
  packEnds : List Nat
  acc : List (Nat × Word32)
  accPoison : List (Nat × Bool)
  vregs : List (Nat × List Word32)
  masks : List (Nat × BitVec 128)
  side : List (Nat × Word64)
  alpha : List (Nat × Word32)
  sort : SortUnit
  acdHeld : List Nat
  bubble : Bool
  bubbleEnded : Option Nat
  abandoned : Bool
  scrubbing : Option Nat
  fenceAt : Option Nat
  testing : Option (Nat × Nat × Nat)
  lastTest : Option Nat
  logical : List (Nat × Nat)
  recover : List Nat
  leaving : Option Nat
  progressAt : Nat
  sideHolder : Option (Nat × Nat)
  rr0 : Nat
  rr1 : Nat
  frozenRegs : List (Nat × Word64)
  deriving DecidableEq, Repr

/-- A command entry as fetched (Table 8.4) with its count and the statuses of the checks that it failed. -/
structure CmdEntry where
  count : Nat
  stream : Nat
  words : Nat
  near : Bool
  resume : Nat
  resumeKib : Nat
  bad : List Nat
  deriving DecidableEq, Repr

/-- An event record before it is placed in a ring (Table 8.8, less SEQ and PHASE). -/
structure EvRec where
  typ : Nat
  severity : Nat
  status : Nat
  act : Nat
  isOffset : Bool
  queue : Option Nat
  core : Nat
  phys : Nat
  mw1 : Bool
  stamp : Nat
  tag : Word32
  payload : Bytes
  deriving DecidableEq, Repr

/-- A copy message on its way to a receiving end (Table 8.6), with the parts of its payload that carry poison marks. -/
structure CopyMsg where
  srcQueue : Nat
  srcCoord : Nat
  srcOffset : Nat
  msgSeq : Nat
  length : Nat
  data : Bytes
  marks : List (Nat × Nat)
  oversize : Bool
  deriving DecidableEq, Repr

/-- A message a receiving end holds: entry count, data offset and bytes of data area it takes, the status of its
consumption once a DIN has consumed it, the command queue of that DIN's stream, and whether that stream has let it go. -/
structure HeldMsg where
  count : Nat
  at_ : Nat
  size : Nat
  consumed : Option Nat
  consumer : Option Nat
  released : Bool
  deriving DecidableEq, Repr

/-- Where a fetched sample stands (R260, R265): fetched; with an engine since a stamp; decoded, or found void for the
reasons of Table 9.6, at a stamp. -/
inductive SampleState where
  | fetched
  | dispatched (engine : Nat) (stamp : Nat)
  | decoded (stamp : Nat)
  | voided (reasons : List Nat) (stamp : Nat)
  deriving DecidableEq, Repr

/-- A fetched sample entry (Table 9.1) and where it stands: the generation it took, when it became the head, the
positions and the media values of its decode (none: padding), its dimensions, the source offset of an error, and how
many of its positions have been placed. -/
structure Sample where
  count : Nat
  raw : Bytes
  gen : Nat
  state : SampleState
  headSince : Option Nat
  positions : Nat
  tokens : List Word32
  media : List (Option Word32)
  width : Nat
  height : Nat
  depth : Nat
  errAt : Nat
  placed : Nat
  deriving DecidableEq, Repr

/-- A segment placed in the open batch (Table 9.5). -/
structure Segment where
  seq : Nat
  start : Nat
  count : Nat
  entry : Nat
  kind : Nat
  branch : Nat
  valid : Bool
  trunc : Bool
  cont : Bool
  more : Bool
  status : Nat
  reason : Nat
  media : Option Nat
  mediaBytes : Bytes
  live : Nat
  tokens : List Word32
  width : Nat
  height : Nat
  depth : Nat
  deriving DecidableEq, Repr

/-- The open or a closed batch of a sample queue (R261, R262). -/
structure Batch where
  number : Nat
  firstEntry : Option Nat
  segments : List Segment
  s : Nat
  p : Nat
  m : Nat
  timing : Bool
  deriving DecidableEq, Repr

/-- An entry whose completion waits for its batch or for earlier entries (R263). -/
structure PendCmpl where
  count : Nat
  status : Nat
  more : Bool
  batch : Option Nat
  deriving DecidableEq, Repr

/-- What a queue holds beside its registers; `entryStep` is the step number with which the entry that runs began. -/
structure Queue where
  control : Option Nat
  off : Nat
  step : Nat
  entryStep : Nat
  entries : List CmdEntry
  bound : Option (Nat × Nat)
  begun : Bool
  rec_ : Option ResumeRec
  sigHigh : Option Nat
  rung : List Nat
  dataHead : Nat
  held : List HeldMsg
  lastSrc : Option Nat
  sendSeq : Nat
  recvSeq : Option Nat
  arriving : List CopyMsg
  partials : List (Nat × List (Nat × Bytes))
  evStamps : List Nat
  evDeadline : Option Nat
  ovf : Option (Nat × Nat × Nat)
  seed : Word64
  samples : List Sample
  batch : Batch
  closed : List Batch
  pendCmpl : List PendCmpl
  conds : List (Nat × Word32)
  deriving DecidableEq, Repr

/-- An act's layout in the Playbill (R372): the home die of each logical core, the statistics base. -/
structure ActLayout where
  act : Nat
  troupe : List Nat
  statsBase : Nat
  deriving DecidableEq, Repr

/-- An act's hold (R403): the records held, the count dropped and the stamps of the first and last. -/
structure Hold where
  recs : List EvRec
  dropped : Nat
  firstDrop : Nat
  lastDrop : Nat
  deriving DecidableEq, Repr

/-- A bank of a Table Store slot (R269): generation and image. -/
structure TsBank where
  gen : Nat
  image : Bytes
  deriving DecidableEq, Repr

/-- A Table Store slot's banks: current and previous. -/
structure TsSlot where
  cur : Option TsBank
  prev : Option TsBank
  /-- The tick of the last commit and the queue whose load it was: it comes last in its cycle (R272). -/
  by_ : Option (Nat × Nat)
  deriving DecidableEq, Repr

/-- The phases of a bucket (Table 10.7, STATE). -/
inductive BktState where
  | free | held | reduce | vote | update | gather
  deriving DecidableEq, Repr

/-- A vote of R295: the owner's ring coordinate, its poison bit, lowest index and that index's coordinate. -/
structure Vote where
  owner : Nat
  poison : Bool
  index : Nat
  coord : Nat
  deriving DecidableEq, Repr

/-- The update of one half of a shard (R296): its first element's offset in the bucket, the new OX16 master codes, and
the codes and scales of the two moments. -/
structure Half where
  base : Nat
  master : List Nat
  codes1 : List Nat
  scales1 : List Nat
  codes2 : List Nat
  scales2 : List Nat
  deriving DecidableEq, Repr

/-- A bucket in flight (R277 to R305): whose it is and from where; its table entry and hyperparameter record; this
device's own contribution; the agreed scale (0 for none); the reduce transmissions sent; the reduce blocks accepted;
the completed sum of the own shard, when it was completed and its first poisoned element; the bumps of the own shard;
the votes held; the engines that took the shard, those still at it and their results; per shard what has been stored
of it (next FIRST, bytes); the gather blocks accepted and not yet stored, and the AUX and POISON_COORD of each shard;
the first position of poison; the conditions met; failed attempts and outstanding re-requests by identity; the
identities sent and accepted; the stamp of its last progress; whether it is the gather of a restored master (R353). -/
structure Bucket where
  act : Nat
  tag : Nat
  step : Nat
  state : BktState
  started : Bool
  core : Nat
  acd : Nat
  lcore : Nat
  seed : Nat
  axis : Nat
  entry : Bytes
  hp : Bytes
  elems : Nat
  scratch : Nat
  own : List Word32
  /-- The scan of the copy found NaN or infinity, or the descriptor's POISON bit was set (R278). -/
  scanned : Bool
  agreed : Nat
  hop : Nat
  blocks : List Bytes
  sum : List Word32
  sumAt : Option Nat
  origin : Option (Nat × Nat)
  bumps : Nat
  votes : List Vote
  taken : List Nat
  computing : List Nat
  halves : List (Nat × Half)
  farBad : List (Nat × Nat)
  stored : List (Nat × Nat × Nat)
  arrived : List Bytes
  aux : List (Nat × Nat × Nat)
  poison : Option (Nat × Nat)
  conds : List Nat
  attempts : List (Nat × Nat)
  asked : List Nat
  sent : List Nat
  accepted : List Nat
  progressAt : Option Nat
  regather : Bool
  deriving DecidableEq, Repr

/-- A frame a sender holds for acknowledgement (R324). -/
structure HeldFrame where
  frame : Frame
  sent : Nat
  deriving DecidableEq, Repr

/-- A frame on its way out of a port (R312, R325): as it is sent, the port it arrived on, if any, and as it was routed. -/
structure OutFrame where
  frame : Frame
  came : Option Nat
  orig : Frame
  deriving DecidableEq, Repr

/-- A link block that a port sent (R309, R310, Table 11.1): its SEQ, whether it carries NAK, the credits it returns (channel,
class, flits), its two flits and their bytes. -/
structure LinkSent where
  seq : Nat
  nak : Bool
  credits : Nat × Nat × Nat
  flit0 : Flit
  flit1 : Flit
  data : Bytes
  deriving DecidableEq, Repr

/-- The keys of a port (R319): for each direction a 32-byte key and a 4-byte salt. -/
structure LinkKeys where
  txKey : Bytes
  txSalt : Bytes
  rxKey : Bytes
  rxSalt : Bytes
  deriving DecidableEq, Repr

/-- A fabric port (R309 to R319) beside its registers: `outq` are the frames that wait for credit or room, `unacked` those in
the replay buffer, each with the SEQ of its last link block, `sent` the link blocks of that buffer; `openRx` are the channels
and classes with a frame partly received; `lastVc` and `sinceVc2` are the arbiter's (R312); `left` is the tick in which the
port left IN_SERVICE last (R315). -/
structure Port where
  since : Nat
  retrains : List Nat
  degrades : List Nat
  authFails : Nat
  rxSeq : Nat
  txSeq : Nat
  nakSent : Bool
  replays : Nat
  lastReplay : Option Nat
  creditAt : List (Nat × Nat)
  hello : Option Hello
  ownHello : Option Hello
  sentProof : Bool
  keys : Option LinkKeys
  outq : List OutFrame
  unacked : List (Nat × OutFrame)
  sent : List LinkSent
  openRx : List Nat
  lastVc : Nat
  sinceVc2 : Nat
  left : Option Nat
  rekeying : Bool
  txCount : Nat
  rxCount : Nat
  window : Nat
  ctlCount : Nat
  second : Nat
  tagFails : Nat
  addrDrops : Nat
  lastRx : Option (Nat × Nat)
  timeSeq : Nat
  generation : Nat
  deriving DecidableEq, Repr

/-- An entry of the fault table (R327, FAB.FAULT). -/
structure LinkFault where
  addr : Nat
  port : Nat
  state : Nat
  gen : Nat
  deriving DecidableEq, Repr

/-- A ring neighbour's heartbeat (R348): its address and the stamp of its last BEAT. -/
structure Neighbour where
  addr : Nat
  lastBeat : Nat
  deriving DecidableEq, Repr

/-- A suspicion that this module raised (R350; stage 1 sent to the warden, 2 to the other warden), or a probe it sent
(stage 0 as warden, 1 as checker of both wardens). -/
structure Watch where
  subject : Nat
  since : Nat
  stage : Nat
  deriving DecidableEq, Repr

/-- A slice of the checkpoint in progress that a cue has asked for (R351, R352): its tag, whether it has been read and
framed, and whether the buddy has acknowledged it. -/
structure Slice where
  tag : Nat
  snapped : Bool
  acked : Bool
  deriving DecidableEq, Repr

/-- A buddy checkpoint in progress (R351, R352). -/
structure Ckpt where
  step : Nat
  slices : List Slice
  slot : Nat
  doneSent : Bool
  deriving DecidableEq, Repr

/-- A saved slice (R351): its tag, the bytes of its parts (master, moments, residual, history, regions), and the update
it was read after, when this device made it. -/
structure SavedSlice where
  tag : Nat
  parts : List Bytes
  shape : Option Bucket
  deriving DecidableEq, Repr

/-- What a slot of a snapshot or buddy area holds (R351): a step, the slices of its state, and the act's seed. -/
structure Snapshot where
  step : Nat
  slices : List SavedSlice
  seed : Nat
  deriving DecidableEq, Repr

/-- A part of a slice that arrives in CHECKPOINT frames (R351): step, tag, part, its total length, and the pieces here,
each with its byte offset. -/
structure PartIn where
  step : Nat
  tag : Nat
  part : Nat
  total : Nat
  got : List (Nat × Bytes)
  deriving DecidableEq, Repr

/-- A rollback in progress (R353): the step, the act, whether this module restores from its buddy's copy, whether its
state has been restored, whether its own restore is complete, and the tags whose working copies are still to be gathered. -/
structure Rollback where
  step : Nat
  act : Nat
  replaced : Bool
  restored : Bool
  complete : Bool
  todo : List Nat
  deriving DecidableEq, Repr

/-- Who makes a far request (R191): a transfer of a core, an optimizer engine that reads its half of a bucket's moments, or
an agent that waits for no data: the engine's commit and the Safety Net. -/
inductive FarOwner where
  | xfer (core idx : Nat)
  | half (bucket engine : Nat)
  | agent
  deriving DecidableEq, Repr

/-- A far request: outstanding, with its deadline (R190), or one that waits for a place, which has none yet. -/
structure FarReq where
  addr : Nat
  write : Bool
  owner : FarOwner
  deadline : Nat
  deriving DecidableEq, Repr

/-- What leaves the module: Unsupported Request completions, read data, poisoned completions, MSI-X messages, frames,
PLDM messages, and a request for a rollback, whose way the spec does not state (log 70). -/
inductive Out where
  | ur (fn off : Nat)
  | data (fn off : Nat) (bytes : Bytes)
  | ep (fn off : Nat)
  | msix (fn vec : Nat)
  | frame (port : Nat) (f : Frame)
  | link (port : Nat) (block : Bytes)
  | pldm (bytes : Bytes)
  | rollbackRequest
  deriving DecidableEq, Repr

/-- A flash command in progress (R384): 1 erase, 2 program, 3 read, its address, the page to program, and whether it has
started: it waits for a mirror page. -/
structure FlashOp where
  cmd : Nat
  addr : Nat
  data : Bytes
  started : Bool
  deriving DecidableEq, Repr

/-- The black box's mirror (R360): the entries that no page has taken yet, each with the tick that wrote it, the
entries of the page being programmed, and whether mirroring has begun. -/
structure Mirror where
  unflushed : List (Nat × Bytes)
  programming : Option (List Bytes)
  active : Bool
  deriving DecidableEq, Repr

/-- Power and reset (R365, R366, R388): whether VIN is qualified, the rail started last, whether the sequence runs, its
failures, PWR_OK, RST_N, whether the module is held in reset, whether boundary scan has halted start-up (R397), since
when k has been 0 in CAPPED, and when PWR_WARN_N was asserted (R362). -/
structure Power where
  vinOk : Bool
  stage : Nat
  running : Bool
  failures : Nat
  pwrOk : Bool
  rstN : Bool
  inReset : Bool
  halted : Bool
  cappedSince : Option Nat
  warnAt : Option Nat
  deriving DecidableEq, Repr

/-- The Show Clock's discipline beside its registers (R194 to R197): the seconds written to SCK.TOD that no
REF_PPS edge has taken, oldest first, each with the tick of its write, good REF_PPS edges in a row, the offsets of the last PTP pairs and the tick of the last, good fabric
transfers in a row, the correction that slews, in ps, and when it began, and by how much the count was set, so that now less it is the time
since the module left reset. -/
structure Clock where
  todArmed : List (Nat × Nat)
  ppsGood : Nat
  pairs : List Int
  lastPair : Nat
  transfers : Nat
  slew : Int
  slewFrom : Nat
  stepped : Int
  deriving DecidableEq, Repr

/-- The values of a cue entry before the first write of the present tick: a write takes effect from the next tick
(R202). `since` is the tick from which these values held, `wrote` are the words written in the tick. -/
structure CueOld where
  at_ : Nat
  since : Nat
  wrote : List Nat
  fireAt : Nat
  action : Nat
  enable : Bool
  period : Nat
  arg : Nat
  deriving DecidableEq, Repr

/-- The certificates and lists that a Playbill loads (R316, Table 13.4). -/
structure Trust where
  roots : Bytes
  revoked : List Bytes
  library : List (Nat × Nat)
  deriving DecidableEq, Repr

/-- The state of the module. Every command changes only this. `free` is the MODEL's own counter, from which
fresh free values are drawn; `pending` is the queue of waiting commands, oldest first. -/
structure State where
  fuse : Fuses
  now : Nat
  regs : List (Nat × Word64)
  near : List Host.Cell
  nearPoison : List (Nat × Bool)
  die : List Host.Cell
  diePoison : List (Nat × Bool)
  far : List Host.Cell
  farPoison : List (Nat × Bool)
  farReqs : List (Nat × List FarReq)
  farAsks : List (Nat × List FarReq)
  farTimeouts : List (Nat × List Nat)
  host : List Host.Cell
  flash : List Host.Cell
  cores : List (Nat × Core)
  queues : List (Nat × Queue)
  acts : List ActLayout
  sems : List (Nat × Nat)
  holds : List (Nat × Hold)
  ts : List (Nat × TsSlot)
  inputRr : List (Nat × Nat)
  buckets : List (Nat × Bucket)
  handed : List (Nat × Nat)
  history : List (Nat × Nat × Nat)
  ports : List (Nat × Port)
  faults : List LinkFault
  heldFrames : List HeldFrame
  peers : List Neighbour
  /-- The stamp at which the last BEATs were due and sent (R347). -/
  beatAt : Option Nat
  suspicions : List Watch
  probes : List Watch
  lostModules : List Nat
  wardenDone : List (Nat × Nat)
  restoredBy : List Nat
  remapGen : Nat
  ckpt : Option Ckpt
  ckptLast : Option (Nat × Nat)
  snaps : List (Nat × Snapshot)
  buddyCopies : List (Nat × Snapshot)
  partsIn : List PartIn
  updates : List (Nat × Bucket)
  rollback : Option Rollback
  fabricHalted : Bool
  stackLost : Option Nat
  dieErrs : List (Nat × List (Nat × Nat))
  stackReads : List (Nat × List (Nat × Nat))
  scrubbed : List (Nat × Nat)
  railRuns : List (Nat × Nat)
  railOver : List (Nat × Nat)
  msixMask : List (Nat × Bool)
  msixPba : List (Nat × Bool)
  vfsOff : Bool
  clock : Clock
  trust : Trust
  power : Power
  mirror : Mirror
  flashOp : Option FlashOp
  update : Option Nat
  phaseAt : Nat
  cueOld : List (Nat × CueOld)
  reduceMark : List (Nat × Nat)
  optMark : List (Nat × Nat)
  gatherMark : List (Nat × Nat)
  out : List Out
  free : Nat
  pending : List Instr
  deriving DecidableEq, Repr

/-- A stream context with no stream bound (R168). -/
def SeqCtx.reset : SeqCtx :=
  { queue := none, kind := 0, act := 0, near := false, base := 0, words := 0, entry := 0, resume := 0,
    resumeKib := 0, word := 0, off := 0, step := 0, seed := 0, sregs := [], preds := 0, loops := [],
    state := .issuing, cur := none, sigs := [], wait := none, cueWait := none, bucketWait := none,
    lib := none, notifies := [], fetched := 0, ended := false, conds := [], syncDone := false, reload := false,
    lastIssue := 0, lastAct := none, copyCons := [] }

/-- The sort unit with nothing loaded (R115). -/
def SortUnit.reset : SortUnit :=
  { load := [], filled := 0, block := [], retained := [], running := none, position := 0, outPos := 0 }

/-- A core right after reset: both contexts free, no work, the partition sizes at the reset values of MX.CTL,
MEM.CTL and SCK.SS_CTL, every memory of the core listing nothing. -/
def Core.reset : Core :=
  { accSplit := 4, sbSideshow := 8, accSs := 16, sideSs := 2, resInject := false,
    ctx0 := SeqCtx.reset, ctx1 := SeqCtx.reset, fwd := [], bwd := [], vecq := [], rowq := [], loaded := [], xps := [], xfers := [], nextXfer := 0,
    stage := [], stagePoison := [], packEnds := [], acc := [], accPoison := [], vregs := [], masks := [], side := [],
    alpha := [], sort := SortUnit.reset, acdHeld := [], bubble := false, bubbleEnded := none,
    abandoned := false, scrubbing := none, fenceAt := none, testing := none, lastTest := none,
    logical := [], recover := [], leaving := none, progressAt := 0, sideHolder := none, rr0 := 65535, rr1 := 65535,
    frozenRegs := [] }

/-- An empty batch (R261). -/
def Batch.reset : Batch :=
  { number := 0, firstEntry := none, segments := [], s := 0, p := 0, m := 0, timing := false }

/-- A queue right after reset (R234: DISABLED). -/
def Queue.reset : Queue :=
  { control := none, off := 0, step := 0, entryStep := 0, entries := [], bound := none, begun := false, rec_ := none,
    sigHigh := none, rung := [], dataHead := 0, held := [], lastSrc := none,
    sendSeq := 0, recvSeq := none, arriving := [], partials := [], evStamps := [], evDeadline := none, ovf := none,
    seed := 0, samples := [], batch := Batch.reset, closed := [], pendCmpl := [], conds := [] }

/-- A fabric port right after reset (R314). -/
def Port.reset : Port :=
  { since := 0, retrains := [], degrades := [], authFails := 0, rxSeq := 0, txSeq := 0, nakSent := false,
    replays := 0, lastReplay := none, creditAt := [], hello := none, ownHello := none, sentProof := false,
    keys := none, outq := [], unacked := [], sent := [], openRx := [], lastVc := 1, sinceVc2 := 0, left := none,
    rekeying := false, txCount := 0, rxCount := 0, window := 0, ctlCount := 0, second := 0, tagFails := 0,
    addrDrops := 0, lastRx := none, timeSeq := 0, generation := 0 }

/-- The fuses of the part that State.reset describes: a PN96-A of stepping A0 with 24 enabled cores and two
spares on every die. DESIGN CHOICE: the spec leaves the fuses to each part (log 3; unsafe). -/
def Fuses.reset : Fuses :=
  { grade := 1, stepping := 0x10,
    enabled := BitVec.ofNat 208 ((List.range 8).foldl (fun a d => a + 0xFFFFFF * 2 ^ (26 * d)) 0),
    spares := BitVec.ofNat 208 ((List.range 8).foldl (fun a d => a + 0x3000000 * 2 ^ (26 * d)) 0),
    serial := 0, addrStraps := 0, keyValid := 1, keyRevoked := 0,
    keyHash := List.replicate 4 (List.replicate 48 0), oxvasHash := List.replicate 48 0 }

/-- The machine right after reset: the rails up and PWR_OK asserted, the module still held in reset until
RESET_RELEASE (R365, R366); every register at its reset value, every memory listing nothing. The power
state is a DESIGN CHOICE (log 6; unsafe). -/
def State.reset : State :=
  { fuse := Fuses.reset, now := 0, regs := [], near := [], nearPoison := [], die := [], diePoison := [],
    far := [], farPoison := [], farReqs := [], farAsks := [], farTimeouts := [], host := [], flash := [],
    cores := [], queues := [], acts := [], sems := [], holds := [], ts := [], inputRr := [], buckets := [], handed := [], history := [],
    ports := [], faults := [], heldFrames := [], peers := [], beatAt := none, suspicions := [], probes := [],
    lostModules := [], wardenDone := [], restoredBy := [], remapGen := 0, ckpt := none, ckptLast := none, snaps := [],
    buddyCopies := [], partsIn := [], updates := [], rollback := none,
    fabricHalted := false, stackLost := none, dieErrs := [], stackReads := [], scrubbed := [],
    railRuns := [], railOver := [], msixMask := [], msixPba := [], vfsOff := false,
    clock := { todArmed := [], ppsGood := 0, pairs := [], lastPair := 0, transfers := 0, slew := 0, slewFrom := 0, stepped := 0 },
    trust := { roots := [], revoked := [], library := [] },
    power := { vinOk := true, stage := 6, running := false, failures := 0, pwrOk := true,
               rstN := true, inReset := true, halted := false, cappedSince := none, warnAt := none },
    mirror := { unflushed := [], programming := none, active := false },
    flashOp := none, update := none, phaseAt := 0, cueOld := [],
    reduceMark := [], optMark := [], gatherMark := [], out := [], free := 0, pending := [] }

end Sys2Proof.Machine
end

