-- ==== Sys2Proof/WellFormed.lean ====
section
/-! DEFINITION. Which commands name units that exist: cores 0 to 207 (R18), contexts 0 and 1 (R168), engines,
queues 0x0000 to 0xFFFF (R223), functions 0 to 8 (R219), ports 0 to 7 (R308), Midways, stacks, slots and
table entries within the spec's numbering. -/

namespace Sys2Proof

/-- A physical core (R18). -/
def okCore (n : Nat) : Bool := decide (n < 208)
/-- A stream context (R168). -/
def okCtx (x : Nat) : Bool := decide (x < 2)
/-- One of two: an engine, a Midway, a Carousel. -/
def okTwo (m : Nat) : Bool := decide (m < 2)
/-- One of four: an expander, a far port, a virtual channel. -/
def okFour (m : Nat) : Bool := decide (m < 4)
/-- A queue ID (R223). -/
def okQueue (q : Nat) : Bool := decide (q < 65536)
/-- A fabric port, a lane of one, or a slot of a bundle: one of eight. -/
def okPort (p : Nat) : Bool := decide (p < 8)
/-- A PCIe function or an act (R219). -/
def okFn (f : Nat) : Bool := decide (f < 9)
/-- An act with a virtual function. -/
def okAct (a : Nat) : Bool := decide (1 ≤ a) && decide (a < 9)
/-- A Table Store slot (R276). -/
def okTslot (n : Nat) : Bool := decide (n < 36)
/-- A Carousel slot (R277). -/
def okSlot (n : Nat) : Bool := decide (n < 128)
/-- A memory stack (R20). -/
def okStack (n : Nat) : Bool := decide (n < 32)
/-- A cue entry (R201). -/
def okCue (n : Nat) : Bool := decide (n < 512)
/-- A rail of Table 12.5. -/
def okRail (n : Nat) : Bool := decide (n < 14)
/-- A die sensor. -/
def okTemp (n : Nat) : Bool := decide (n < 10)
/-- A die of the package. -/
def okDie (n : Nat) : Bool := decide (n < 10)
/-- An MSI-X vector of a function (R218). -/
def okVec (fn vec : Nat) : Bool := decide (vec < (if fn = 0 then 64 else 16))

/-- Whether every unit that a command names exists. -/
def Instr.wf : Instr → Bool
  | .registerWrite fn _ _ _ => okFn fn
  | .rcRead fn _ _ => okFn fn
  | .unsupportedBar0Access fn _ _ => okFn fn
  | .tileNanClear core => okCore core
  | .xpfaultClear core => okCore core
  | .vxFaultClear core => okCore core
  | .seqFaultClear core ctx => okCore core && okCtx ctx
  | .carPoisonClear act => okAct act
  | .resInject core => okCore core
  | .accSplitApply core => okCore core
  | .emptyBundle core ctx => okCore core && okCtx ctx
  | .nop core ctx slot => okCore core && okCtx ctx && okPort slot
  | .bundleRetire core ctx => okCore core && okCtx ctx
  | .notify core ctx => okCore core && okCtx ctx
  | .resumeRecord core ctx => okCore core && okCtx ctx
  | .runCountHalt q => okQueue q
  | .product core ctx e => okCore core && okCtx ctx.x && okTwo e
  | .weightLoad core e => okCore core && okTwo e.e
  | .activationRow core e _ => okCore core && okTwo e
  | .productComplete core e => okCore core && okTwo e
  | .expanderBlock core port _ => okCore core && okFour port
  | .tableFetchDone core port => okCore core && okFour port
  | .add core ctx => okCore core && okCtx ctx
  | .sub core ctx => okCore core && okCtx ctx
  | .mul core ctx => okCore core && okCtx ctx
  | .fma core ctx => okCore core && okCtx ctx
  | .min core ctx => okCore core && okCtx ctx
  | .max core ctx => okCore core && okCtx ctx
  | .abs core ctx => okCore core && okCtx ctx
  | .neg core ctx => okCore core && okCtx ctx
  | .cpysgn core ctx => okCore core && okCtx ctx
  | .div core ctx => okCore core && okCtx ctx
  | .sqrt core ctx => okCore core && okCtx ctx
  | .exp2 core ctx => okCore core && okCtx ctx
  | .log2 core ctx => okCore core && okCtx ctx
  | .rcp core ctx => okCore core && okCtx ctx
  | .rsq core ctx => okCore core && okCtx ctx
  | .iadd core ctx => okCore core && okCtx ctx
  | .isub core ctx => okCore core && okCtx ctx
  | .imul core ctx => okCore core && okCtx ctx
  | .imin core ctx => okCore core && okCtx ctx
  | .imax core ctx => okCore core && okCtx ctx
  | .and core ctx => okCore core && okCtx ctx
  | .or core ctx => okCore core && okCtx ctx
  | .xor core ctx => okCore core && okCtx ctx
  | .shl core ctx => okCore core && okCtx ctx
  | .shr core ctx => okCore core && okCtx ctx
  | .sra core ctx => okCore core && okCtx ctx
  | .cvt core ctx => okCore core && okCtx ctx
  | .cmp core ctx => okCore core && okCtx ctx
  | .mand core ctx => okCore core && okCtx ctx
  | .mor core ctx => okCore core && okCtx ctx
  | .mxor core ctx => okCore core && okCtx ctx
  | .mandn core ctx => okCore core && okCtx ctx
  | .mnot core ctx => okCore core && okCtx ctx
  | .mset core ctx => okCore core && okCtx ctx
  | .bcast core ctx => okCore core && okCtx ctx
  | .iota core ctx => okCore core && okCtx ctx
  | .compress core ctx => okCore core && okCtx ctx
  | .expand core ctx => okCore core && okCtx ctx
  | .lda core ctx _ => okCore core && okCtx ctx
  | .sta core ctx => okCore core && okCtx ctx
  | .ld core ctx _ => okCore core && okCtx ctx
  | .st core ctx => okCore core && okCtx ctx
  | .ldx core ctx _ => okCore core && okCtx ctx
  | .stc core ctx => okCore core && okCtx ctx
  | .gather core ctx _ => okCore core && okCtx ctx
  | .scatter core ctx => okCore core && okCtx ctx
  | .rsum core ctx => okCore core && okCtx ctx
  | .rmax core ctx => okCore core && okCtx ctx
  | .rmin core ctx => okCore core && okCtx ctx
  | .ramax core ctx => okCore core && okCtx ctx
  | .risum core ctx => okCore core && okCtx ctx
  | .mpopc core ctx => okCore core && okCtx ctx
  | .sortLoad core ctx => okCore core && okCtx ctx
  | .sortRun core ctx => okCore core && okCtx ctx
  | .sortMerge core ctx => okCore core && okCtx ctx
  | .sortDone core => okCore core
  | .sortOut core ctx => okCore core && okCtx ctx
  | .smaxAcc core ctx => okCore core && okCtx ctx.x
  | .smaxScale core ctx => okCore core && okCtx ctx.x
  | .smaxFin core ctx => okCore core && okCtx ctx.x
  | .smaxFull core ctx => okCore core && okCtx ctx.x
  | .smaxBwd core ctx => okCore core && okCtx ctx.x
  | .dot core ctx => okCore core && okCtx ctx.x
  | .normFwd core ctx => okCore core && okCtx ctx.x
  | .normBwd core ctx => okCore core && okCtx ctx.x
  | .statSave core ctx => okCore core && okCtx ctx.x
  | .statLoad core ctx => okCore core && okCtx ctx.x
  | .sadd core ctx => okCore core && okCtx ctx
  | .ssub core ctx => okCore core && okCtx ctx
  | .smul core ctx => okCore core && okCtx ctx
  | .sand core ctx => okCore core && okCtx ctx
  | .sor core ctx => okCore core && okCtx ctx
  | .sxor core ctx => okCore core && okCtx ctx
  | .sshl core ctx => okCore core && okCtx ctx
  | .sshr core ctx => okCore core && okCtx ctx
  | .ssra core ctx => okCore core && okCtx ctx
  | .smin core ctx => okCore core && okCtx ctx
  | .smax core ctx => okCore core && okCtx ctx
  | .sli core ctx => okCore core && okCtx ctx
  | .slih core ctx => okCore core && okCtx ctx
  | .saddi core ctx => okCore core && okCtx ctx
  | .scmp core ctx => okCore core && okCtx ctx
  | .sfcmp core ctx => okCore core && okCtx ctx
  | .pand core ctx => okCore core && okCtx ctx
  | .por core ctx => okCore core && okCtx ctx
  | .pxor core ctx => okCore core && okCtx ctx
  | .pnot core ctx => okCore core && okCtx ctx
  | .br core ctx => okCore core && okCtx ctx
  | .brs core ctx => okCore core && okCtx ctx
  | .loop core ctx => okCore core && okCtx ctx
  | .breakif core ctx => okCore core && okCtx ctx
  | .slc core ctx => okCore core && okCtx ctx
  | .acd core ctx => okCore core && okCtx ctx
  | .sstep core ctx => okCore core && okCtx ctx
  | .calllib core ctx => okCore core && okCtx ctx
  | .libraryReturn core ctx _ _ _ => okCore core && okCtx ctx
  | .dinCopy core ctx => okCore core && okCtx ctx.x
  | .doutCopy core ctx => okCore core && okCtx ctx.x
  | .drain core ctx => okCore core && okCtx ctx.x
  | .drainConvert core ctx _ => okCore core && okCtx ctx
  | .transferDone core ctx _ _ _ => okCore core && okCtx ctx
  | .nearRequest _ _ _ _ => true
  | .patrolScrub stack _ _ => okStack stack
  | .farCompletion port _ _ => okFour port
  | .farRequestTimeout port _ => okFour port
  | .sbSideshowApply core => okCore core
  | .fence core ctx => okCore core && okCtx ctx
  | .signal core ctx => okCore core && okCtx ctx
  | .signalApply core ctx => okCore core && okCtx ctx
  | .wait core ctx => okCore core && okCtx ctx
  | .waitDeadline core ctx => okCore core && okCtx ctx
  | .cuewait core ctx => okCore core && okCtx ctx
  | .bucket core ctx => okCore core && okCtx ctx
  | .event core ctx => okCore core && okCtx ctx
  | .refPpsEdge _ => true
  | .ptpCommit _ => true
  | .referenceLoss => true
  | .cueWrite fn entry _ _ => okFn fn && okCue entry
  | .cueFire entry => okCue entry
  | .headlineRequest _ => true
  | .headlineChange => true
  | .bubbleBegin core => okCore core
  | .bubbleEnd core => okCore core
  | .preemptAbandon core => okCore core
  | .sideshowResume core => okCore core
  | .shareWindowEnd held rebinds => held.all (fun h => okFn h.act) && rebinds.all (fun b => okCore b.core && okQueue b.queue)
  | .scrubComplete core => okCore core
  | .ssRegionApply core => okCore core
  | .vfFlr k => okAct k
  | .pfFlr => true
  | .apertureRead fn _ _ => okFn fn
  | .apertureWrite fn _ _ => okFn fn
  | .doorbell fn _ _ _ => okFn fn
  | .create fn => okFn fn
  | .start fn => okFn fn
  | .stop fn => okFn fn
  | .queueStopped q => okQueue q
  | .reset fn => okFn fn
  | .resetDone q => okQueue q
  | .skip fn => okFn fn
  | .resume fn => okFn fn
  | .destroy fn => okFn fn
  | .commandEntryFetch q => okQueue q
  | .streamBind q => okQueue q
  | .streamEnd core ctx => okCore core && okCtx ctx
  | .cueEntry q => okQueue q
  | .copyMessageArrive q => okQueue q
  | .dinReceive core ctx _ _ => okCore core && okCtx ctx
  | .msixTimer q => okQueue q
  | .msixUnmask fn vec => okFn fn && okVec fn vec
  | .evtTest _ => true
  | .sampleFetch q => okQueue q
  | .tableLoadCommit tslot => okTslot tslot.n
  | .decodeDispatch m kind engine => okTwo m && okFour kind && decide (engine < 6)
  | .decodeComplete q _ => okQueue q
  | .decodeBudgetTimeout q _ => okQueue q
  | .staleTimeout q _ => okQueue q
  | .batchEmit q => okQueue q
  | .batchRelease q => okQueue q
  | .bucketHandover core ctx => okCore core && okCtx ctx
  | .bucketStart m slot => okTwo m && okSlot slot
  | .scratchReadDone m slot => okTwo m && okSlot slot
  | .carouselBlockSend m slot => okTwo m && okSlot slot
  | .block p _ => okPort p
  | .rereq p _ => okPort p
  | .vote p _ => okPort p
  | .optimizerTakeShard engine m slot => okTwo engine && okTwo m && okSlot slot
  | .optimizerCommit m slot => okTwo m && okSlot slot
  | .gatherBlockReceive p _ => okPort p
  | .bucketPeerDeadline m slot => okTwo m && okSlot slot
  | .linkBlockReceive p _ => okPort p
  | .trainingComplete p => okPort p
  | .trainingTimeout p _ => okPort p
  | .auth p _ _ => okPort p
  | .authTimeout p => okPort p
  | .rekey p => okPort p
  | .creditTimeout p vc _ => okPort p && okFour vc
  | .degradedReturn p => okPort p
  | .quarantineRetry p => okPort p
  | .laneLockLoss p lane => okPort p && okPort lane
  | .retry p => okPort p
  | .disable p => okPort p
  | .linkEnable p => okPort p
  | .frameForward p _ => okPort p
  | .copy p _ => okPort p
  | .ack p _ => okPort p
  | .frameResendTimeout _ => true
  | .time p _ _ _ => okPort p
  | .timeFrameSend p _ _ => okPort p
  | .linkState p _ => okPort p
  | .unreachable p _ => okPort p
  | .coreWatchdog core ctx => okCore core && okCtx ctx
  | .fencedTransferAbandon core => okCore core
  | .spareTestDone core _ => okCore core
  | .recoverResume core => okCore core
  | .doubledSwapTimeout core => okCore core
  | .stackInterfaceLoss stack => okStack stack
  | .crossLinkError => true
  | .midwayUe m => okTwo m
  | .heartbeatSend => true
  | .beat p _ => okPort p
  | .heartbeatTimeout _ => true
  | .suspect p _ => okPort p
  | .probe p _ => okPort p
  | .probeReply p _ => okPort p
  | .probeTimeout _ => true
  | .lost p _ => okPort p
  | .suspectEscalateTimeout _ => true
  | .halt p _ => okPort p
  | .remap p _ => okPort p
  | .restoreComplete => true
  | .checkpointFrame p _ => okPort p
  | .sliceAck p _ => okPort p
  | .ckptDone p _ => okPort p
  | .ckptCommit p _ => okPort p
  | .restored p _ => okPort p
  | .railSample r _ => okRail r
  | .tempSample t _ => okTemp t
  | .retest core => okCore core
  | .retestDone core _ => okCore core
  | .mirrorPageProgram => true
  | .freeze => true
  | .thaw => true
  | .pwrWarnAssert => true
  | .vinQualified => true
  | .railRegulated _ => true
  | .railSequenceFail => true
  | .railRetry => true
  | .vinLoss => true
  | .resetRelease => true
  | .rstNAssert => true
  | .reboot _ => true
  | .firmwareVerify => true
  | .playbillSelect _ _ => true
  | .stackTrainingComplete _ far => far.all (fun f => okFour f.port)
  | .selfTestComplete cores stackFails => cores.all (fun f => okCore f.unit) && stackFails.all (fun f => okStack f.unit)
  | .linkBringupComplete => true
  | .timeWaitTimeout => true
  | .flashErase => true
  | .flashProgram => true
  | .flashRead => true
  | .flashCmdDone => true
  | .throttleAdjust _ _ _ _ k => okFour k
  | .setEndpointId _ _ => true
  | .pldmRequest _ _ => true
  | .requestUpdate component _ => okFour component
  | .verifyComplete => true
  | .activateFirmware _ => true
  | .cancelUpdate _ => true
  | .updateIr die _ => okDie die
  | .submit => true
  | .relock => true
  | .unlockExpiry => true
  | .pwrWarnNRise => true
  | .msixMask fn vec => okFn fn && okVec fn vec
  | .mirrorPageDone => true
  | .streamFetchDone core ctx => okCore core && okCtx ctx
  | .slewComplete => true
  | .componentImageWrite component _ _ _ => okFour component

end Sys2Proof
end

