-- ==== Sys2Proof/Machine/Ops.lean ====
section
/-! DEFINITION. The named operations over the state: registers and their fields, cores, queues and ports,
the bytes and poison marks of every memory (R174, R187, R188, R189), the access windows (R180), and the
acts' queues, cue ranges and troupes (R219, R223). -/

namespace Sys2Proof.Machine

/-- What a command answers in state `s`, with `t` the state that its effect leaves: one that names a unit outside the
numbering faults, and no command changes the fuses (R1, R3) or the queue of the commands that wait. -/
def whenUnits (s : State) (ok : Bool) (t : State) : Host.Outcome State Fault Refusal :=
  if ok then .next { t with fuse := s.fuse, pending := s.pending } else .fault .noSuchUnit

/-! Registers. -/

/-- The word that a register's fields spell at reset. -/
def RegDef.resetWord (r : RegDef) : Nat := r.fields.foldl (fun w f => w + f.reset * 2 ^ f.fld.lo) 0

/-- NET.CORE_n as the fuses give it (Table 12.10): in service, idle spare, or fused off. -/
def Fuses.coreState (f : Fuses) (n : Nat) : Nat :=
  if f.enabled.getLsbD n then 3 else if f.spares.getLsbD n then 1 else 0

/-- The value a register holds after reset (R8: the Reset column). -/
def resetReg (f : Fuses) (k : Nat) : Nat :=
  if 0xB00100 ≤ k ∧ k < 0xB00100 + 8 * 208 ∧ k % 8 = 0 then f.coreState ((k - 0xB00100) / 8)
  else match findReg k with
    | some r => r.resetWord
    | none => 0

/-- The value of the register with key `k`. -/
def State.reg (s : State) (k : Nat) : Nat :=
  match Sparse.get? s.regs k with
  | some v => v.toNat
  | none => resetReg s.fuse k

/-- Sets a register. -/
def State.setReg (s : State) (k v : Nat) : State :=
  { s with regs := Sparse.put s.regs k (BitVec.ofNat 64 v) }

/-- A field of a register. -/
def State.fld (s : State) (k : Nat) (f : Fld) : Nat := bits (s.reg k) f.lo f.w

/-- Sets a field of a register. -/
def State.setFld (s : State) (k : Nat) (f : Fld) (v : Nat) : State :=
  s.setReg k (putBits (s.reg k) f.lo f.w v)

/-- A one-bit field as a truth value. -/
def State.flag (s : State) (k : Nat) (f : Fld) : Bool := s.fld k f = 1

/-- Adds to a field that saturates at its width. -/
def State.addSat (s : State) (k : Nat) (f : Fld) (n : Nat) : State :=
  s.setFld k f (min (s.fld k f + n) (2 ^ f.w - 1))

/-- Adds to a field that wraps at its width. -/
def State.addWrap (s : State) (k : Nat) (f : Fld) (n : Nat) : State :=
  s.setFld k f (s.fld k f + n)

/-- Adds to a field of which the spec does not say what follows its largest value: past it the field is open (log 107). -/
def State.addOpen (s : State) (k : Nat) (f : Fld) (n : Nat) : State :=
  let v := s.fld k f + n
  s.setFld k f (if v < 2 ^ f.w then v else (Config.counterOpen k f.lo v).toNat)

/-! Parts of the machine. -/

/-- Core `n`. -/
def State.core (s : State) (n : Nat) : Core := Sparse.get Core.reset s.cores n
/-- Sets core `n`. -/
def State.setCore (s : State) (n : Nat) (c : Core) : State := { s with cores := Sparse.put s.cores n c }
/-- Changes core `n`. -/
def State.modCore (s : State) (n : Nat) (f : Core → Core) : State := s.setCore n (f (s.core n))
/-- Context `x` of core `n`. -/
def State.ctx (s : State) (n x : Nat) : SeqCtx := if x = 0 then (s.core n).ctx0 else (s.core n).ctx1
/-- Changes context `x` of core `n`. -/
def State.modCtx (s : State) (n x : Nat) (f : SeqCtx → SeqCtx) : State :=
  s.modCore n fun c => if x = 0 then { c with ctx0 := f c.ctx0 } else { c with ctx1 := f c.ctx1 }
/-- Queue `q`. -/
def State.queue (s : State) (q : Nat) : Queue := Sparse.get Queue.reset s.queues q
/-- Changes queue `q`. -/
def State.modQueue (s : State) (q : Nat) (f : Queue → Queue) : State :=
  { s with queues := Sparse.put s.queues q (f (s.queue q)) }
/-- Port `p`. -/
def State.port (s : State) (p : Nat) : Port := Sparse.get Port.reset s.ports p
/-- Changes port `p`. -/
def State.modPort (s : State) (p : Nat) (f : Port → Port) : State :=
  { s with ports := Sparse.put s.ports p (f (s.port p)) }
/-- Sends something out of the module. -/
def State.emit (s : State) (o : Out) : State := { s with out := s.out ++ [o] }

/-- Applies a change for every element of a list, first to last. -/
def State.each {α : Type} (l : List α) (f : α → State → State) (s : State) : State :=
  l.foldl (fun s a => f a s) s

/-! Bytes of memory. -/

/-- The bytes of `n` cells from `a`; `d` is what an unlisted cell reads as. -/
def readCells (d : Byte) (m : List Host.Cell) (a n : Nat) : Bytes :=
  (List.range n).map fun i => Sparse.get d m (a + i)

/-- Writes bytes at cells from `a`. -/
def writeCells (d : Byte) (m : List Host.Cell) (a : Nat) : Bytes → List Host.Cell
  | [] => m
  | b :: bs => writeCells d (Sparse.set d m a b) (a + 1) bs

/-- Whether any mark of granule `g` overlaps the `n` bytes at `a`. -/
def anyMark (g : Nat) (m : List (Nat × Bool)) (a n : Nat) : Bool :=
  n ≠ 0 && m.any fun p => p.2 && decide (a / g ≤ p.1) && decide (p.1 ≤ (a + n - 1) / g)

/-- Clears the marks of every granule that the `n` bytes at `a` cover whole (R188). -/
def clearMarks (g : Nat) (m : List (Nat × Bool)) (a n : Nat) : List (Nat × Bool) :=
  Sparse.clear m ((a + g - 1) / g) ((a + n) / g)

/-- Marks every granule that the `n` bytes at `a` overlap (R187). -/
def addMarks (g : Nat) (m : List (Nat × Bool)) (a n : Nat) : List (Nat × Bool) :=
  if n = 0 then m
  else (List.range ((a + n - 1) / g + 1 - a / g)).foldl (fun m i => Sparse.put m (a / g + i) true) m

/-- Gigabytes of address space of a die before and after the loss of a stack (R174, R344). -/
def dieRange : Nat := 640 * 2 ^ 30
/-- What a die keeps on three stacks (R344). -/
def dieKept : Nat := 480 * 2 ^ 30

/-- Whether the lost stack's die holds a near address in its remaining range (R344). -/
def State.onShortDie (s : State) (a : Nat) : Bool :=
  match s.stackLost with
  | some t => decide (a / dieRange = t / 4) && decide (a % dieRange < dieKept)
  | none => false

/-- Whether a near range reaches into the absent range of a die that runs on three stacks (R344). -/
def State.nearAbsent (s : State) (a n : Nat) : Bool :=
  match s.stackLost with
  | some t => decide (a < (t / 4 + 1) * dieRange) && decide (t / 4 * dieRange + dieKept < a + n)
  | none => false

/-- Whether near unit `u` of 64 bytes carries a mark: every unit of a short die does until it is written (R344). -/
def State.nearUnitMarked (s : State) (u : Nat) : Bool :=
  (Sparse.get? s.nearPoison u).getD (s.onShortDie (64 * u))

/-- Whether far port `p` is out of service (R346). -/
def State.farDown (s : State) (p : Nat) : Bool := s.flag (Reg.farStatus p) Fld.farStatusDegraded

/-- Clears the marks of near units written whole; on a short die the units are listed as clean. -/
def State.clearNear (s : State) (a n : Nat) : List (Nat × Bool) :=
  let m := clearMarks 64 s.nearPoison a n
  if s.stackLost = none then m
  else (List.range ((a + n) / 64 - (a + 63) / 64)).foldl (fun m i =>
    let u := (a + 63) / 64 + i
    if s.onShortDie (64 * u) then Sparse.put m u false else m) m

/-- The memories a range of bytes can lie in. -/
inductive Space where
  | near
  | far (port : Nat)
  | die (d : Nat)
  | stage (core : Nat)
  | host
  deriving DecidableEq, Repr

/-- What a byte that nothing has written reads as: zero. DESIGN CHOICE (log 4; unsafe): the spec gives memory
no contents at power-on. -/
def emptyByte : Byte := 0

/-- What an unwritten byte of the flash reads as: erased (DESIGN CHOICE, log 4; unsafe). -/
def erasedByte : Byte := 0xFF

/-- The `n` bytes at address `a` of a memory. -/
def State.readMem (s : State) (sp : Space) (a n : Nat) : Bytes :=
  match sp with
  | .near => readCells emptyByte s.near a n
  | .far p => readCells emptyByte s.far (p * 2 ^ 43 + a) n
  | .die d => readCells emptyByte s.die (d * 2 ^ 26 + a) n
  | .stage c => readCells emptyByte (s.core c).stage a n
  | .host => readCells emptyByte s.host a n

/-- The number in `n` bytes at `a`. -/
def State.readNum (s : State) (sp : Space) (a n : Nat) : Nat := ofLe (s.readMem sp a n)

/-- Whether a unit or word that the `n` bytes at `a` overlap carries a poison mark (R187). -/
def State.marked (s : State) (sp : Space) (a n : Nat) : Bool :=
  match sp with
  | .near =>
    if s.stackLost = none then anyMark 64 s.nearPoison a n
    else n ≠ 0 && (List.range ((a + n - 1) / 64 + 1 - a / 64)).any fun i => s.nearUnitMarked (a / 64 + i)
  | .far p => s.farDown p || anyMark 64 s.farPoison (p * 2 ^ 43 + a) n
  | .die d => anyMark 8 s.diePoison (d * 2 ^ 26 + a) n
  | .stage c => anyMark 8 (s.core c).stagePoison a n
  | .host => false

/-- Writes bytes at `a`; a unit or word written whole loses its mark (R188). A far port out of service drops the
write (R346). -/
def State.writeMem (s : State) (sp : Space) (a : Nat) (bs : Bytes) : State :=
  match sp with
  | .near => { s with near := writeCells emptyByte s.near a bs
                      nearPoison := s.clearNear a bs.length }
  | .far p =>
    if s.farDown p then s
    else { s with far := writeCells emptyByte s.far (p * 2 ^ 43 + a) bs
                  farPoison := clearMarks 64 s.farPoison (p * 2 ^ 43 + a) bs.length }
  | .die d => { s with die := writeCells emptyByte s.die (d * 2 ^ 26 + a) bs
                       diePoison := clearMarks 8 s.diePoison (d * 2 ^ 26 + a) bs.length }
  | .stage c => s.modCore c fun k => { k with stage := writeCells emptyByte k.stage a bs
                                              stagePoison := clearMarks 8 k.stagePoison a bs.length }
  | .host => { s with host := writeCells emptyByte s.host a bs }

/-- Writes the `n`-byte number `v` at `a`. -/
def State.writeNum (s : State) (sp : Space) (a n v : Nat) : State := s.writeMem sp a (leBytes n v)

/-- Marks every unit or word that the `n` bytes at `a` overlap (R187). -/
def State.markMem (s : State) (sp : Space) (a n : Nat) : State :=
  match sp with
  | .near => { s with nearPoison := addMarks 64 s.nearPoison a n }
  | .far p => { s with farPoison := addMarks 64 s.farPoison (p * 2 ^ 43 + a) n }
  | .die d => { s with diePoison := addMarks 8 s.diePoison (d * 2 ^ 26 + a) n }
  | .stage c => s.modCore c fun k => { k with stagePoison := addMarks 8 k.stagePoison a n }
  | .host => s

/-- The canonical form of every byte memory of the module. -/
def State.memWf (s : State) : Bool :=
  Sparse.wf emptyByte s.near && Sparse.wf emptyByte s.far && Sparse.wf emptyByte s.die &&
    Sparse.wf emptyByte s.host && Sparse.wf erasedByte s.flash &&
    s.cores.all fun p => Sparse.wf emptyByte p.2.stage

/-! Addresses. -/

/-- The size of near memory, 5 TiB (R174). -/
def nearSize : Nat := 5 * 2 ^ 40

/-- The fabric act (R351). -/
def State.fabricAct (s : State) : Nat := s.fld Reg.netCkpt Fld.netCkptAct

/-- The size of a stage buffer (R171). -/
def stageSize : Nat := 2 ^ 22

/-- The stack that holds a near address (R174). -/
def nearStack (a : Nat) : Nat :=
  4 * (a / (640 * 2 ^ 30)) + (a % (640 * 2 ^ 30) / 4096) % 4

/-- The stack that holds a near address, with a lost stack's die laid over the other three (R344). -/
def State.stackOf (s : State) (a : Nat) : Nat :=
  match s.stackLost with
  | some t =>
    if a / dieRange = t / 4 then
      ((((List.range 4).map fun i => t / 4 * 4 + i).filter (· ≠ t))[a % dieRange / 4096 % 3]?).getD t
    else nearStack a
  | none => nearStack a

/-- The compute die of a physical core (R18). -/
def coreDie (n : Nat) : Nat := n / 26

/-! Acts. -/

/-- Whether the act exists: SCK.ACT_a.ENABLED, and act 0 always (Table 7.8, R373). -/
def State.actEnabled (s : State) (a : Nat) : Bool :=
  a = 0 || s.flag (Reg.sckAct a) Fld.sckActEnabled

/-- The headline act in force, 0 for none (R203). -/
def State.headline (s : State) : Nat := s.fld Reg.sckHeadline Fld.sckHeadlineAct

/-- Whether queue `q` lies in an act's doorbell ranges (R223). -/
def State.ownsQueue (s : State) (a q : Nat) : Bool :=
  (List.range 4).any fun r =>
    let b := s.fld (Reg.qmActRange a r) Fld.qmActRangeFirstPage
    let n := s.fld (Reg.qmActRange a r) Fld.qmActRangePages
    decide (b ≤ q / 64) && decide (q / 64 < b + n)

/-- The act that owns queue `q` (R223). -/
def State.queueAct (s : State) (q : Nat) : Option Nat :=
  (List.range 9).find? fun a => s.ownsQueue a q

/-- The layout of an act, if the Playbill gave one (R372). -/
def State.layout? (s : State) (a : Nat) : Option ActLayout := s.acts.find? fun l => l.act = a

/-- The number of logical cores of an act (R372). -/
def State.troupeSize (s : State) (a : Nat) : Nat :=
  match s.layout? a with | some l => l.troupe.length | none => 0

/-- Whether a range lies wholly in one near window of an act, writable if it is written (R180). -/
def State.nearWindow (s : State) (a addr len : Nat) (write : Bool) : Bool :=
  (List.range 8).any fun w =>
    let r := s.reg (Reg.memWin a w)
    let b := bits r 0 13 * 2 ^ 30
    let n := bits r 16 13 * 2 ^ 30
    n ≠ 0 && decide (b ≤ addr) && decide (addr + len ≤ b + n) && !(write && bit r 29)

/-- Whether a range lies wholly in an act's die-buffer window (R180). -/
def State.dieWindow (s : State) (a addr len : Nat) : Bool :=
  let r := s.reg (Reg.memDbw a)
  let b := bits r 0 6 * 2 ^ 20
  let n := bits r 8 7 * 2 ^ 20
  n ≠ 0 && decide (b ≤ addr) && decide (addr + len ≤ b + n)

/-- Whether a range lies wholly in an act's window of far port `p` (R180). -/
def State.farWindow (s : State) (p a addr len : Nat) : Bool :=
  let r := s.reg (Reg.farWin p a)
  let b := bits r 0 13 * 2 ^ 30
  let n := bits r 16 13 * 2 ^ 30
  n ≠ 0 && decide (b ≤ addr) && decide (addr + len ≤ b + n)

/-- The mapped capacity of a far port in bytes (R189). -/
def State.farCap (s : State) (p : Nat) : Nat := s.fld (Reg.farCap p) Fld.farCapCapGib * 2 ^ 30

/-- Whether an act may reach a range of near memory outside a stream: act 0 is not checked against windows (R180). -/
def State.nearAllowed (s : State) (a addr len : Nat) (write : Bool) : Bool :=
  if a = 0 then decide (addr + len ≤ nearSize) else s.nearWindow a addr len write

/-- Whether an act may reach a range of port `p`'s far memory outside a stream (R180). -/
def State.farAllowed (s : State) (p a addr len : Nat) : Bool :=
  if a = 0 then decide (addr + len ≤ s.farCap p) else s.farWindow p a addr len

/-- Whether far port `p` is bonded in this grade (Table 0.1, CAP.FAR). -/
def State.farBonded (s : State) (p : Nat) : Bool := s.fuse.grade = 1 && decide (p < 4)

/-- A queue's state field (Table 8.5). -/
def State.qState (s : State) (q : Nat) : Nat := s.fld (Reg.qmQState q) Fld.qmQStateState

/-- Whether queue `q` is created (R234). -/
def State.qCreated (s : State) (q : Nat) : Bool := s.qState q ≠ 0

/-- A queue's type (Table 8.3). -/
def State.qType (s : State) (q : Nat) : Nat := s.fld (Reg.qmQCfg q) Fld.qmQCfgType

/-- Whether queue `q` is in state RUNNING; a lost module's queues have all stopped (R337). -/
def State.qRunning (s : State) (q : Nat) : Bool :=
  s.qState q = 2 && s.fld Reg.topState Fld.topStatePhase ≠ 0xF

/-- Ring size S (R226). -/
def State.qSize (s : State) (q : Nat) : Nat := 2 ^ s.fld (Reg.qmQCfg q) Fld.qmQCfgLog2Size

/-- The consumer count. -/
def State.qCons (s : State) (q : Nat) : Nat := s.fld (Reg.qmQPtr q) Fld.qmQPtrConsumer
/-- The producer count. -/
def State.qProd (s : State) (q : Nat) : Nat := s.fld (Reg.qmQPtr q) Fld.qmQPtrProducer

/-- The entries in a ring, (producer − consumer) mod 2^32 (R226). -/
def State.qUsed (s : State) (q : Nat) : Nat := (s.qProd q + 2 ^ 32 - s.qCons q) % 2 ^ 32

/-- The space of a ring: host memory or near memory (Table 8.11, SPACE). -/
def State.qSpace (s : State) (q : Nat) : Space :=
  if s.fld (Reg.qmQCfg q) Fld.qmQCfgSpace = 1 then .near else .host

/-- The address of the ring slot of entry count `c` (R226). -/
def State.qSlot (s : State) (q c : Nat) : Nat :=
  s.reg (Reg.qmQBase q) + 64 * (c % s.qSize q)

/-- PHASE of entry count `c` of queue `q` (R242). -/
def State.qPhase (s : State) (q c : Nat) : Nat := 1 - (c / s.qSize q) % 2

/-- Writes a queue's device-side count to its shadow, if it has one (R229). -/
def State.shadow (s : State) (q v : Nat) : State :=
  let a := s.reg (Reg.qmQShadow q)
  if a = 0 then s else s.writeNum .host a 4 v

/-- Sets the consumer count; on a host-fed ring it is the device-side count, so the shadow follows. -/
def State.setCons (s : State) (q v : Nat) : State :=
  (s.setFld (Reg.qmQPtr q) Fld.qmQPtrConsumer v).shadow q (v % 2 ^ 32)

/-- Sets the producer count of a device-fed ring; the shadow follows. -/
def State.setProd (s : State) (q v : Nat) : State :=
  (s.setFld (Reg.qmQPtr q) Fld.qmQPtrProducer v).shadow q (v % 2 ^ 32)

/-- Serial-number comparison of 32-bit offsets: whether `a` is at or below `b` (R239). -/
def serialLe (a b : Nat) : Bool := decide ((b + 2 ^ 32 - a % 2 ^ 32) % 2 ^ 32 < 2 ^ 31)

/-- The status codes that the device returns (Table 0.5, R14). -/
def statusCodes : List Nat :=
  [0x00, 0x01, 0x02, 0x03, 0x04, 0x10, 0x11, 0x12, 0x13, 0x20, 0x21, 0x30, 0x31, 0x32, 0x40, 0x50, 0x51, 0x52, 0x60]

/-- A status that the spec does not state: it still comes from Table 0.5 (R11, R14), and which row is a free value. -/
def openStatus (row : BitVec 5) : Nat := (statusCodes[row.toNat % 19]?).getD 0

/-- The lower of two statuses as R13 orders them: 0x00 OK and 0x21 SCALE_BUMPED give way to any other. -/
def statusOf (conds : List Nat) : Nat :=
  let hard := conds.filter fun c => c ≠ 0 && c ≠ 0x21
  match hard with
  | [] => if conds.contains 0x21 then 0x21 else 0
  | c :: cs => cs.foldl min c

/-- The next value of the MODEL's own counter, from which free values are drawn (log 7). -/
def State.drawn (s : State) : State := { s with free := s.free + 1 }

/-- The start-up phase (Table 1.7). -/
def State.phase (s : State) : Nat := s.fld Reg.topState Fld.topStatePhase

/-- Whether the module is up: out of reset, powered and not halted. -/
def State.alive (s : State) : Bool := !s.power.inReset && s.power.pwrOk

/-- The time since the module left reset, whatever the count was set to (R195, R366). -/
def State.uptime (s : State) : Nat := ((s.now : Int) - s.clock.stepped).toNat

/-- NET.CORE_n.STATE (Table 12.10). -/
def State.coreState (s : State) (n : Nat) : Nat := s.fld (Reg.netCore n) Fld.netCoreState

end Sys2Proof.Machine
end

