-- ==== Sys2Proof/Machine/Events.lean ====
section
/-! DEFINITION. The Barker and the completion areas: event records and their routing (R243 to R246), the hold
(R403), interrupts (R247), completions (R242), and the black-box record that every severe event enters (R359
to R361). -/

namespace Sys2Proof.Machine

/-! The black box. -/

/-- Entry `i` mod 4,096 of the record takes 32 bytes (Table 12.11). -/
def State.bbxStore (s : State) (i : Nat) (bs : Bytes) : State :=
  s.each (List.range 4) fun k s => s.setReg (Reg.bbxEntry (i % 4096) k) (fieldAt bs (8 * k) 8)

/-- Puts an entry on the mirror's list of unflushed entries, once mirroring has begun (R360). -/
def State.mirrorPush (s : State) (bs : Bytes) : State :=
  if s.mirror.active then
    { s with mirror := { s.mirror with unflushed := s.mirror.unflushed ++ [(s.now, bs)] } }
  else s

/-- One entry into the record: it takes the next SEQ and goes to the mirror's list (R359). -/
def State.bbxAppend (s : State) (stamp typ status b14 b15 phys queue tag : Nat) (pay : Bytes) : State :=
  let seq := s.fld Reg.bbxStatus Fld.bbxStatusSeqNext
  let bs := leBytes 8 stamp ++ leBytes 4 seq ++ leBytes 1 typ ++ leBytes 1 status ++ leBytes 1 b14 ++
    leBytes 1 b15 ++ leBytes 2 phys ++ leBytes 2 queue ++ leBytes 4 tag ++ padTo 8 pay
  ((s.bbxStore seq bs).addWrap Reg.bbxStatus Fld.bbxStatusSeqNext 1).mirrorPush bs

/-- The entries that do not stand in the flash yet, those of the page being programmed among them (R360). -/
def State.unflushed (s : State) : Nat := s.mirror.unflushed.length + (s.mirror.programming.getD []).length

/-- A marker entry: FREEZE, GAP, BOOT or THAW (R359). -/
def State.bbxMarker (s : State) (typ pay : Nat) : State :=
  s.bbxAppend s.now typ 0 0 1 0xFFFF 0 0 (leBytes 8 pay)

/-- When a 17th unflushed entry arrives, the two oldest that no page has taken are dropped from the mirror, counted,
and a GAP entry that counts them takes one of their places (R360; which entries make room is a DESIGN CHOICE,
log 9). -/
def State.mirrorRoom (s : State) : State :=
  if s.mirror.active && decide (16 ≤ s.unflushed) then
    let s := { s with mirror := { s.mirror with unflushed := s.mirror.unflushed.drop 2 } }
    (s.addSat Reg.bbxLost Fld.bbxLostGaps 2).bbxMarker 0x81 2
  else s

/-- An entry for the black box: stored, or counted in BBX.LOST while the record is frozen (R359, R361). -/
def State.bbxWrite (s : State) (stamp typ status b14 b15 phys queue tag : Nat) (pay : Bytes) : State :=
  if s.flag Reg.bbxStatus Fld.bbxStatusFrozen then s.addSat Reg.bbxLost Fld.bbxLostEntries 1
  else s.mirrorRoom.bbxAppend stamp typ status b14 b15 phys queue tag pay

/-- The record freezes with a cause: a FREEZE entry, for which the mirror makes room (R360), follows what the same cycle
wrote; only the first cause is recorded (R361). -/
def State.bbxFreeze (s : State) (cause : Nat) : State :=
  if s.flag Reg.bbxStatus Fld.bbxStatusFrozen then s
  else
    let s := s.mirrorRoom.bbxMarker 0x80 cause
    ((s.setFld Reg.bbxStatus Fld.bbxStatusFrozen 1).setFld Reg.bbxStatus Fld.bbxStatusCause cause).setReg
      Reg.bbxFreezeAt s.now

/-- Recording resumes and a THAW entry is written (R361). -/
def State.bbxThaw (s : State) : State :=
  if s.flag Reg.bbxStatus Fld.bbxStatusFrozen then
    let s := (s.setFld Reg.bbxStatus Fld.bbxStatusFrozen 0).setFld Reg.bbxStatus Fld.bbxStatusCause 0
    s.mirrorRoom.bbxMarker 0x83 0
  else s

/-- The entry of an event record, for every event of severity 2 or 3 and every FAULT and FABRIC event
(R359, Table 12.8). -/
def State.bbxEvent (s : State) (r : EvRec) : State :=
  if 2 ≤ r.severity ∨ r.typ = 0x0B ∨ r.typ = 0x0C then
    s.bbxWrite r.stamp r.typ r.status
      (r.act + r.severity * 16 + b2n r.isOffset * 64 + b2n r.mw1 * 128)
      (b2n r.queue.isNone) r.phys (r.queue.getD 0) r.tag.toNat (r.payload.take 8)
  else s

/-! Interrupts. -/

/-- Whether a vector is masked. The PCIe Base Specification masks every vector at reset (PRESUMED, log 45). -/
def State.msixMasked (s : State) (fn vec : Nat) : Bool := Sparse.get true s.msixMask (fn * 64 + vec)

/-- Sends the MSI-X message of a vector, or sets its PBA bit while the vector is masked (R247). -/
def State.msixSend (s : State) (fn vec : Nat) : State :=
  if s.msixMasked fn vec then
    { s with msixPba := Sparse.put s.msixPba (fn * 64 + vec) true }
  else s.emit (.msix fn vec)

/-- The interrupt of an event queue: its pending records return to zero (R247). -/
def State.evInterrupt (s : State) (q : Nat) : State :=
  let s := s.modQueue q fun k => { k with evStamps := [], evDeadline := none }
  let s := s.setFld (Reg.evtPending q) Fld.evtPendingRecords 0
  s.msixSend ((s.queueAct q).getD 0) (s.fld (Reg.evtMod q) Fld.evtModVector)

/-- A record just written makes the queue interrupt when pending reaches COUNT, or when it is urgent; otherwise
the first pending record sets the deadline of the timer (R247). -/
def State.moderate (s : State) (q severity : Nat) : State :=
  let st := (s.queue q).evStamps
  let time := s.fld (Reg.evtMod q) Fld.evtModTimeNs
  if s.fld (Reg.evtMod q) Fld.evtModCount + 1 ≤ st.length ∨
      (s.flag (Reg.qmQCfg q) Fld.qmQCfgUrgent = true ∧ 2 ≤ severity) then s.evInterrupt q
  else if (s.queue q).evDeadline = none ∧ time ≠ 0 then
    s.modQueue q fun k => { k with evDeadline := some (st.headD s.now + time) }
  else s

/-! Records in rings. -/

/-- The 64 bytes of a record with its SEQ and PHASE (Table 8.8). -/
def EvRec.bytes (r : EvRec) (seq phase : Nat) : Bytes :=
  leBytes 1 r.typ ++ leBytes 1 (r.severity % 4 + phase * 128) ++ leBytes 1 r.status ++
    leBytes 1 (r.act + b2n r.isOffset * 16 + b2n r.queue.isNone * 32) ++ leBytes 2 (r.queue.getD 0) ++
    leBytes 2 r.core ++ leBytes 8 r.stamp ++ leBytes 4 r.tag.toNat ++ leBytes 4 seq ++ padTo 40 r.payload

/-- Writes a record into the next slot of event queue `q`, which has room (R243, R245). TOP.STATE.READY is set
when the READY record has been written (R381). -/
def State.ringWrite (s : State) (q : Nat) (r : EvRec) : State :=
  let p := s.qProd q
  let seq := s.fld (Reg.evtSeq q) Fld.evtSeqNext
  let s := s.writeMem (s.qSpace q) (s.qSlot q p) (r.bytes seq (s.qPhase q p))
  let s := (s.setProd q (p + 1)).addWrap (Reg.evtSeq q) Fld.evtSeqNext 1
  let s := s.modQueue q fun k => { k with evStamps := k.evStamps ++ [r.stamp] }
  let s := s.setFld (Reg.evtPending q) Fld.evtPendingRecords (s.queue q).evStamps.length
  let s := if r.typ = 0x10 ∧ r.payload.head? = some 1 then s.setFld Reg.topState Fld.topStateReady 1 else s
  s.moderate q r.severity

/-- A record dropped on queue `q`: counted, with the stamps of the first and last (R246, Table 8.14). -/
def State.ringDrop (s : State) (q stamp : Nat) : State :=
  let s := (s.addSat (Reg.evtQstat q) Fld.evtQstatDropped 1).setFld (Reg.evtQstat q) Fld.evtQstatOverflow 1
  s.modQueue q fun k => { k with ovf := match k.ovf with
    | none => some (1, stamp, stamp)
    | some (n, a, _) => some (n + 1, a, stamp) }

/-- The OVERFLOW record of R246. -/
def overflowRec (act q now n first last : Nat) : EvRec :=
  { typ := 0x0F, severity := 1, status := 0, act := act, isOffset := false, queue := some q, core := 0xFFFF,
    phys := 0xFFFF, mw1 := q ≥ 0x8000, stamp := now, tag := 0,
    payload := leBytes 4 n ++ leBytes 4 0 ++ leBytes 8 first ++ leBytes 8 last }

/-- Whether event queue `q` is running and its ring has room. -/
def State.ringRoom (s : State) (q : Nat) : Bool := s.qRunning q && decide (s.qUsed q < s.qSize q)

/-- Writes the OVERFLOW record that waits for a free slot, if one waits and a slot is free (R246). -/
def State.ringCatchUp (s : State) (q : Nat) : State :=
  match (s.queue q).ovf with
  | none => s
  | some (n, a, b) =>
    if s.ringRoom q then
      (s.modQueue q fun k => { k with ovf := none }).ringWrite q
        (overflowRec ((s.queueAct q).getD 0) q s.now n a b)
    else s

/-- Gives a record to event queue `q`: written, or dropped and counted while the ring is full or the queue is
not RUNNING (R246, Table 8.14). -/
def State.deliver (s : State) (q : Nat) (r : EvRec) : State :=
  let s := s.ringCatchUp q
  if s.ringRoom q then s.ringWrite q r else s.ringDrop q r.stamp

/-- Whether `q` is a created event queue of the act. -/
def State.evQueueOf (s : State) (a q : Nat) : Bool :=
  s.qCreated q && s.qType q = 3 && s.ownsQueue a q

/-- The act's default event queue, when QM.ACT_EVQ names a created one (R244). -/
def State.defaultEvq (s : State) (a : Nat) : Option Nat :=
  let q := s.fld (Reg.qmActEvq a) Fld.qmActEvqQueue
  if s.flag (Reg.qmActEvq a) Fld.qmActEvqValid ∧ s.evQueueOf a q then some q else none

/-- The event queue a record goes to (R244). -/
def State.evTarget (s : State) (a : Nat) (queue : Option Nat) : Option Nat :=
  match queue with
  | some q =>
    let e := s.fld (Reg.qmQCfg q) Fld.qmQCfgEvq
    if s.qType q ≠ 3 ∧ s.evQueueOf a e then some e else s.defaultEvq a
  | none => s.defaultEvq a

/-- The hold of an act. -/
def State.hold (s : State) (a : Nat) : Hold :=
  Sparse.get { recs := [], dropped := 0, firstDrop := 0, lastDrop := 0 } s.holds a

/-- Changes the hold of an act. -/
def State.setHold (s : State) (a : Nat) (h : Hold) : State := { s with holds := Sparse.put s.holds a h }

/-- A record into the act's hold, or dropped and counted while the hold has no room (R403). -/
def Hold.push (room : Nat) (h : Hold) (r : EvRec) : Hold :=
  if h.recs.length < room then { h with recs := h.recs ++ [r] }
  else { h with dropped := h.dropped + 1
                firstDrop := if h.dropped = 0 then r.stamp else h.firstDrop
                lastDrop := r.stamp }

/-- The records that an act's hold takes: 64, the last of act 0's kept for the READY record (R381, R403). -/
def State.holdRoom (s : State) (a : Nat) : Nat := if a = 0 ∧ s.phase < 6 then 63 else 64

/-- Writes an act's held records to its default event queue in order once that queue is RUNNING, an OVERFLOW
record first when records were dropped (R403). -/
def State.releaseHold (s : State) (a : Nat) : State :=
  match s.defaultEvq a with
  | none => s
  | some q =>
    let h := s.hold a
    if s.qRunning q ∧ (h.recs ≠ [] ∨ h.dropped ≠ 0) then
      let s := s.setHold a { recs := [], dropped := 0, firstDrop := 0, lastDrop := 0 }
      let s := if h.dropped = 0 then s
        else (s.addSat (Reg.evtQstat q) Fld.evtQstatDropped h.dropped).deliver q
          (overflowRec a q s.now h.dropped h.firstDrop h.lastDrop)
      s.each h.recs fun r s => s.deliver q r
    else s

/-- An event record of an act: into the black box when R359 asks for it, and to its event queue, or to the
act's hold when the act has no created event queue for it; what the act's hold can write goes before it (R244,
R403). -/
def State.event (s : State) (r : EvRec) : State :=
  let s := (s.bbxEvent r).releaseHold r.act
  match s.evTarget r.act r.queue with
  | some q => s.deliver q r
  | none => s.setHold r.act ((s.hold r.act).push (s.holdRoom r.act) r)

/-- The acts that a device-wide condition is reported to: act 0 and the others it affects (R244). -/
def reportActs (l : List Nat) : List Nat := (List.range 9).filter fun a => a = 0 || l.contains a

/-- A device-wide record: one black-box entry, and one record to each act it affects (R244, R338). -/
def State.broadcast (s : State) (acts : List Nat) (r : EvRec) : State :=
  (s.bbxEvent r).each (reportActs acts) fun a s =>
    let s := s.releaseHold a
    match s.evTarget a r.queue with
    | some q => s.deliver q { r with act := a }
    | none => s.setHold a ((s.hold a).push (s.holdRoom a) { r with act := a })

/-- A record that concerns no queue, core or tag. -/
def plainRec (typ severity status act stamp : Nat) (payload : Bytes) : EvRec :=
  { typ := typ, severity := severity, status := status, act := act, isOffset := false, queue := none,
    core := 0xFFFF, phys := 0xFFFF, mw1 := false, stamp := stamp, tag := 0, payload := payload }

/-- The severity of an event that the spec states none for. -/
def openSeverity (typ status : Nat) : Nat := (Config.severity typ status).toNat

/-- The act's own event of a type and status, at the present tick, with the open severity. -/
def State.actEvent (s : State) (typ status act : Nat) (payload : Bytes) : State :=
  s.event (plainRec typ (openSeverity typ status) status act s.now payload)

/-- An ACCESS_DENIED event to an act for an access outside what is its own (R28, R222, R250). Its type is not
stated by the spec: QUEUE, as for a doorbell rejection (DESIGN CHOICE, log 10), its severity left open. -/
def State.deniedEvent (s : State) (act : Nat) : State := s.actEvent 0x0E 0x03 act []

/-- The CORE of a record of an act that concerns queue `q` and no bundle: the core of a command queue of the act
(Table 8.8, R404; DEDUCED, log 144). -/
def State.recCore (s : State) (act q : Nat) : Nat :=
  if s.qType q = 1 ∧ s.ownsQueue act q then s.fld (Reg.qmQCfg q) Fld.qmQCfgCore else 0xFFFF

/-- A QUEUE event of queue `q` (Table 8.9): bytes 24–25 the queue, byte 26 the old state, byte 27 the new. -/
def State.queueEvent (s : State) (act q severity status old new : Nat) : State :=
  s.event { typ := 0x0E, severity := severity, status := status, act := act, isOffset := false,
            queue := some q, core := s.recCore act q, phys := 0xFFFF, mw1 := q ≥ 0x8000, stamp := s.now, tag := 0,
            payload := leBytes 2 q ++ leBytes 1 old ++ leBytes 1 new }

/-- Sets the state of a queue, with the QUEUE event of the change (Table 8.9). -/
def State.setQState (s : State) (q new : Nat) : State :=
  let old := s.qState q
  let s := s.setFld (Reg.qmQState q) Fld.qmQStateState new
  s.queueEvent ((s.queueAct q).getD 0) q 0 0 old new

/-- A refused control or creation: CTL_ERR and a QUEUE event at severity 1 (R234). -/
def State.refuseControl (s : State) (q status : Nat) : State :=
  let s := s.setFld (Reg.qmQState q) Fld.qmQStateCtlErr 1
  s.queueEvent ((s.queueAct q).getD 0) q 1 status (s.qState q) (s.qState q)

/-! Completions. -/

/-- The 16 bytes of a completion area (R242). -/
def completionBytes (status phase : Nat) (more : Bool) (count now : Nat) : Bytes :=
  leBytes 1 status ++ leBytes 1 (phase + b2n more * 2) ++ leBytes 2 0 ++ leBytes 4 count ++ leBytes 8 now

/-- Writes the completion area of entry `count` of queue `q`; the consumer count passes it, then the
COMPLETION event follows when the queue asks for one (R229, R242, Table 8.9). -/
def State.complete (s : State) (q count status : Nat) (more : Bool) : State :=
  let s := s.writeMem (s.qSpace q) (s.qSlot q count + 48)
    (completionBytes status (s.qPhase q count) more count s.now)
  let s := s.setFld (Reg.qmQState q) Fld.qmQStateLastStatus status
  let s := s.setCons q (count + 1)
  if s.flag (Reg.qmQCfg q) Fld.qmQCfgCmplEvt then
    let a := (s.queueAct q).getD 0
    s.event { typ := 0x01, severity := openSeverity 0x01 status, status := status, act := a,
              isOffset := false, queue := some q, core := s.recCore a q, phys := 0xFFFF, mw1 := q ≥ 0x8000,
              stamp := s.now, tag := 0, payload := leBytes 4 count }
  else s

end Sys2Proof.Machine
end

