-- ==== Sys2Proof/Machine/Cues.lean ====
section
/-! DEFINITION. Writing the cue table (R201, R202, R217, R241). -/

namespace Sys2Proof.Machine

/-- The owner of a cue entry (CUE.CTL.ACT). -/
def State.cueAct (s : State) (e : Nat) : Nat := s.fld (Reg.cueCtl e) Fld.cueCtlAct

/-- An entry as it stands in the present tick. -/
def State.cueNow (s : State) (e : Nat) : CueOld :=
  { at_ := s.now, since := (match Sparse.get? s.cueOld e with | some o => o.at_ + 1 | none => 0), wrote := [], fireAt := s.reg (Reg.cueFireAt e), action := s.fld (Reg.cueCtl e) Fld.cueCtlAction,
    enable := s.flag (Reg.cueCtl e) Fld.cueCtlEnable, period := s.reg (Reg.cuePeriod e), arg := s.reg (Reg.cueArg e) }

/-- The entry as it stood before the writes of the present tick (R202). -/
def State.cueInForce (s : State) (e : Nat) : CueOld :=
  match Sparse.get? s.cueOld e with
  | some o => if o.at_ = s.now then o else s.cueNow e
  | none => s.cueNow e

/-- Keeps an entry's values before the first write of a tick to its word `w` (R202). -/
def State.cueKeep (s : State) (e w : Nat) : State :=
  let o := s.cueInForce e
  { s with cueOld := Sparse.put s.cueOld e { o with wrote := w :: o.wrote } }

/-- A write of FIRE_AT clears FIRED (R202). -/
def State.cueFireAtWrite (s : State) (e v : Nat) : State :=
  ((s.cueKeep e 0).setReg (Reg.cueFireAt e) v).setFld (Reg.cueCtl e) Fld.cueCtlFired 0

/-- A write of ACTION and ENABLE; a reserved ACTION makes the write ignored (Table 7.3). -/
def State.cueCtlWrite (s : State) (e v : Nat) : State :=
  if 4 < bits v 0 3 then s
  else
    let s := (s.cueKeep e 1).setFld (Reg.cueCtl e) Fld.cueCtlAction (bits v 0 3)
    (s.setFld (Reg.cueCtl e) Fld.cueCtlEnable (bits v 3 1)).setFld (Reg.cueCtl e) Fld.cueCtlFired 0

/-- A write of PERIOD; 1 to 999 is ignored (R202). -/
def State.cuePeriodWrite (s : State) (e v : Nat) : State :=
  if 1 ≤ v ∧ v ≤ 999 then s else (s.cueKeep e 2).setReg (Reg.cuePeriod e) v

/-- A write of ARG. -/
def State.cueArgWrite (s : State) (e v : Nat) : State := (s.cueKeep e 3).setReg (Reg.cueArg e) v

/-- A write of word 0 to 3 of an entry: FIRE_AT, CTL, PERIOD, ARG. -/
def State.cueWordWrite (s : State) (e word v : Nat) : State :=
  match word with
  | 0 => s.cueFireAtWrite e v
  | 1 => s.cueCtlWrite e v
  | 2 => s.cuePeriodWrite e v
  | 3 => s.cueArgWrite e v
  | _ => s

/-- An entry of a cue queue as one write (Table 8.7, R241). -/
def State.cueEntryWrite (s : State) (e : Nat) (bs : Bytes) : State :=
  let s := s.cueFireAtWrite e (fieldAt bs 8 8)
  let s := s.cueCtlWrite e (fieldAt bs 2 2)
  (s.cuePeriodWrite e (fieldAt bs 16 8)).cueArgWrite e (fieldAt bs 24 8)

end Sys2Proof.Machine
end

