-- ==== Sys2Proof/Machine/Frames.lean ====
section
/-! DEFINITION. Fabric ports and frames: addresses and the remap table (R320), the state of a port (R314, R315,
R327), building frames (R321), credits (R312, R313), and choosing their way out (R325, R326). -/

namespace Sys2Proof.Machine

/-! Addresses. -/

/-- This module's physical address (Table 11.12). -/
def State.self (s : State) : Nat := s.fld Reg.fabSelf Fld.fabSelfAddr

/-- Coordinate `d` of an address: x, y, z, w (R320). -/
def coordOf (a d : Nat) : Nat := bits a (4 * d) 4

/-- An address with coordinate `d` replaced. -/
def withCoord (a d v : Nat) : Nat := putBits a (4 * d) 4 v

/-- The extent of dimension `d` (FAB.EXTENT). -/
def State.extent (s : State) (d : Nat) : Nat := bits (s.reg Reg.fabExtent) (4 * d) 4 + 1

/-- Whether an address lies within the extents. -/
def State.inExtents (s : State) (a : Nat) : Bool :=
  (List.range 4).all fun d => decide (coordOf a d < s.extent d)

/-- The module next to `a` in dimension `d`, in the plus or the minus direction. -/
def State.besides (s : State) (a d : Nat) (plus : Bool) : Nat :=
  let n := s.extent d
  withCoord a d ((coordOf a d + (if plus then 1 else n - 1)) % n)

/-- The physical address of a logical coordinate (R320). -/
def State.physOf (s : State) (l : Nat) : Nat :=
  match (List.range 64).find? fun r =>
      s.flag (Reg.fabRemap r) Fld.fabRemapValid && s.fld (Reg.fabRemap r) Fld.fabRemapLogical = l with
  | some r => s.fld (Reg.fabRemap r) Fld.fabRemapPhysical
  | none => l

/-- Whether a module is a hot spare by its Playbill (R320; log 74). -/
def State.spareModule (s : State) (a : Nat) : Bool :=
  if a = s.self then s.flag Reg.fabSelf Fld.fabSelfSpare else Config.moduleSpare (BitVec.ofNat 16 a)

/-- The logical coordinate of a physical address: its entry's, else the same, which a spare does not have, nor a module whose
coordinate stands elsewhere (R320). -/
def State.logicalOf (s : State) (a : Nat) : Option Nat :=
  match (List.range 64).find? fun r =>
      s.flag (Reg.fabRemap r) Fld.fabRemapValid && s.fld (Reg.fabRemap r) Fld.fabRemapPhysical = a with
  | some r => some (s.fld (Reg.fabRemap r) Fld.fabRemapLogical)
  | none => if s.physOf a = a && !s.spareModule a then some a else none

/-- This module's logical coordinate. -/
def State.selfLogical (s : State) : Nat := s.fld Reg.fabSelf Fld.fabSelfLogical

/-! Ports. -/

/-- The port of dimension `d` in a direction: X+, X−, Y+, … (R20). -/
def portOf (d : Nat) (plus : Bool) : Nat := 2 * d + (if plus then 0 else 1)

/-- LNK.STATUS.STATE (Table 11.3). -/
def State.portState (s : State) (p : Nat) : Nat := s.fld (Reg.lnkStatus p) Fld.lnkStatusState

/-- Whether port `p` is IN_SERVICE. -/
def State.inService (s : State) (p : Nat) : Bool := s.portState p = 4

/-- The in-service ports. -/
def State.openPorts (s : State) : List Nat := (List.range 8).filter s.inService

/-- Confirmed partner of a port. -/
def State.partner (s : State) (p : Nat) : Nat := s.fld (Reg.lnkStatus p) Fld.lnkStatusPartner

/-- The key of a channel and class. -/
def laneKey (vc cls : Nat) : Nat := 2 * vc + cls

/-- The field of a class's credits. -/
def creditFld (cls : Nat) : Fld := if cls = 0 then Fld.lnkVcCredits0 else Fld.lnkVcCredits1

/-- The receive buffer of each class of a channel, in flits (Table 11.2). -/
def vcBuffer (vc : Nat) : Nat := match vc with | 0 => 256 | 1 => 256 | 2 => 128 | _ => 32

/-- Every credit count full. -/
def State.fillCredits (s : State) (p : Nat) : State :=
  s.each (List.range 4) fun v s =>
    (s.setFld (Reg.lnkVc p v) Fld.lnkVcCredits0 (vcBuffer v)).setFld (Reg.lnkVc p v) Fld.lnkVcCredits1 (vcBuffer v)

/-- Whether every credit count of a port is full (R314). -/
def State.creditsFull (s : State) (p : Nat) : Bool :=
  (List.range 4).all fun v =>
    s.fld (Reg.lnkVc p v) Fld.lnkVcCredits0 = vcBuffer v && s.fld (Reg.lnkVc p v) Fld.lnkVcCredits1 = vcBuffer v

/-! Building frames. -/

/-- The 16-byte frame header (Table 11.6). -/
def frameHeader (f : Frame) : Bytes :=
  leBytes 2 f.dst.toNat ++ leBytes 2 f.src.toNat ++
    leBytes 1 (f.typ.toNat + f.vc.toNat * 16 + b2n f.cls * 64 + b2n f.enc * 128) ++
    leBytes 1 (b2n f.sidestep + f.blocked.toNat * 2 + f.sidesteps.toNat * 8) ++ leBytes 2 f.length.toNat ++
    leBytes 1 f.hops.toNat ++ leBytes 3 0 ++ leBytes 4 f.crc.toNat

/-- A frame of this module: the CRC covers extension and payload, and is zero for a BLOCK (Table 11.6). -/
def State.newFrame (s : State) (dst typ vc : Nat) (ext payload : Bytes) : Frame :=
  { dst := BitVec.ofNat 16 dst, src := BitVec.ofNat 16 s.self, typ := BitVec.ofNat 4 typ,
    vc := BitVec.ofNat 2 vc, cls := false, enc := false, sidestep := false, blocked := 0, sidesteps := 0,
    length := BitVec.ofNat 13 payload.length, hops := 0,
    crc := if typ = 1 then 0 else BitVec.ofNat 32 (crc32c (ext ++ payload)), ext := ext, payload := payload,
    tagOk := true }

/-- The bytes a frame takes on a link: header, extension, payload to a multiple of 16, and the tag (R321). -/
def frameSize (f : Frame) : Nat :=
  16 + f.ext.length + (f.payload.length + 15) / 16 * 16 + (if f.enc then 16 else 0)

/-- The flits of a frame. -/
def frameFlits (f : Frame) : Nat := (frameSize f + 255) / 256

/-! Link blocks (R309 to R311). -/

/-- The IV of a direction's next frame: its salt and the 64-bit frame counter (R319). -/
def linkIv (salt : Bytes) (count : Nat) : Bytes := salt ++ leBytes 8 count

/-- The bytes of a frame on a link: header, extension and padded payload, encrypted with their tag on a port with keys (R319,
R321). -/
def State.wireBytes (s : State) (p : Nat) (f : Frame) : Bytes :=
  let body := f.ext ++ padTo ((f.payload.length + 15) / 16 * 16) f.payload
  frameHeader f ++ (match (s.port p).keys with
    | some k => (List.range (body.length + 16)).map
        (Config.gcmByte k.txKey (linkIv k.txSalt (s.port p).txCount) (frameHeader f) body)
    | none => body)

/-- A flit field without a flit. -/
def noFlit : Flit := { valid := false, vc := 0, cls := false, start := false, isEnd := false, abort := false, units := 0 }

/-- The flits of a frame from its bytes: START on the first, END on the last (R311, Table 11.1). -/
def flitsOf (f : Frame) (bs : Bytes) : List (Flit × Bytes) :=
  let cs := chunks bs.length 256 bs
  (indexed 0 cs).map fun c =>
    ({ valid := true, vc := f.vc, cls := f.cls, start := decide (c.1 = 0), isEnd := decide (c.1 + 1 = cs.length), abort := false,
       units := BitVec.ofNat 4 ((c.2.length + 15) / 16 - 1) }, padTo 256 c.2)

/-- Two flits to a link block, from SEQ `seq` + 1 on (R309). -/
def blocksOf (seq : Nat) : List (Flit × Bytes) → List LinkSent
  | [] => []
  | [a] => [{ seq := (seq + 1) % 4096, nak := false, credits := (0, 0, 0), flit0 := a.1, flit1 := noFlit, data := padTo 512 a.2 }]
  | a :: b :: l =>
    { seq := (seq + 1) % 4096, nak := false, credits := (0, 0, 0), flit0 := a.1, flit1 := b.1, data := a.2 ++ b.2 } ::
      blocksOf (seq + 1) l

/-- A flit's field of the link control (Table 11.1). -/
def flitField (f : Flit) : Nat :=
  b2n f.valid + f.vc.toNat * 2 + b2n f.cls * 8 + b2n f.start * 16 + b2n f.isEnd * 32 + b2n f.abort * 64 + f.units.toNat * 128

/-- The 560 bytes of a link block with the ACK it is sent with (R309, Table 11.1). -/
def LinkSent.bytes (b : LinkSent) (ack : Nat) : Bytes :=
  let control := b.seq + ack * 2 ^ 12 + b2n b.nak * 2 ^ 24 + b.credits.1 * 2 ^ 25 + b.credits.2.1 * 2 ^ 27 +
    b.credits.2.2 * 2 ^ 28 + flitField b.flit0 * 2 ^ 36 + flitField b.flit1 * 2 ^ 47
  let front := b.data ++ leBytes 8 control
  front ++ leBytes 40 (Config.parity front).toNat

/-- Sends link blocks; the replay buffer keeps the last 2,048 (R310). -/
def State.sendBlocks (s : State) (p : Nat) (bs : List LinkSent) : State :=
  let s := s.modPort p fun k =>
    { k with txSeq := (k.txSeq + bs.length) % 4096, sent := (k.sent ++ bs).drop (k.sent.length + bs.length - 2048) }
  s.each bs fun b s => s.emit (.link p (b.bytes (s.port p).rxSeq))

/-- Sends a link block without flits: a NAK, or credits that go back (R309, R310). -/
def State.sendIdle (s : State) (p : Nat) (nak : Bool) (credits : Nat × Nat × Nat) : State :=
  s.sendBlocks p [{ seq := ((s.port p).txSeq + 1) % 4096, nak := nak, credits := credits, flit0 := noFlit, flit1 := noFlit,
                    data := List.replicate 512 0 }]

/-! Credits. -/

/-- The link blocks of a frame. -/
def frameBlocks (f : Frame) : Nat := (frameFlits f + 1) / 2

/-- Puts a frame on the link: its flits take credits and link blocks, and it stays in the replay buffer until the
partner acknowledges it; the arbiter notes its channel (R309, R310, R312). -/
def State.putOnLink (s : State) (p : Nat) (o : OutFrame) : State :=
  let f := o.frame
  let v := f.vc.toNat
  let c := b2n f.cls
  let s := s.setFld (Reg.lnkVc p v) (creditFld c) (s.fld (Reg.lnkVc p v) (creditFld c) - (frameFlits f))
  let s := s.addWrap (Reg.lnkBytesTx p) Fld.lnkBytesTxCount (frameSize f)
  let s := s.sendBlocks p (blocksOf (s.port p).txSeq (flitsOf f (s.wireBytes p f)))
  let s := s.modPort p fun k =>
    { k with txCount := if k.keys.isSome then k.txCount + 1 else k.txCount
             unacked := k.unacked ++ [(k.txSeq, o)]
             lastVc := if v ≤ 1 then v else k.lastVc
             sinceVc2 := if v = 2 then 0 else k.sinceVc2 + 1 }
  s.emit (.frame p f)

/-- Whether there is credit for every flit of a frame. A frame takes its credits together (DESIGN CHOICE, log 35). -/
def State.credited (s : State) (p : Nat) (f : Frame) : Bool :=
  decide (frameFlits f ≤ s.fld (Reg.lnkVc p f.vc.toNat) (creditFld (b2n f.cls)))

/-- Whether the replay buffer of 2,048 link blocks has room for a frame (R310). -/
def State.replayRoom (s : State) (p : Nat) (f : Frame) : Bool := decide ((s.port p).sent.length + frameBlocks f ≤ 2048)

/-- Whether two frames share a channel and class. -/
def sameLane (f g : Frame) : Bool := f.vc = g.vc && f.cls = g.cls

/-- Whether a frame may go at once: credit, room to replay it, and no earlier frame of its class waits. -/
def State.mayPut (s : State) (p : Nat) (f : Frame) : Bool :=
  s.credited p f && s.replayRoom p f && (s.port p).outq.all fun g => !sameLane g.frame f

/-- Sends a frame on a port: on the link, or into the output queue, with a credit deadline where it lacks credit (R313). -/
def State.transmit (s : State) (p : Nat) (o : OutFrame) : State :=
  let o := { o with frame := { o.frame with enc := (s.port p).keys.isSome } }
  let f := o.frame
  if s.mayPut p f then s.putOnLink p o
  else
    let k := laneKey f.vc.toNat (b2n f.cls)
    let lacks := !s.credited p f
    s.modPort p fun q =>
      { q with outq := q.outq ++ [o],
               creditAt := if (Sparse.get? q.creditAt k).isSome || !lacks then q.creditAt
                 else Sparse.put q.creditAt k (s.now + s.fld (Reg.lnkCreditNs p) Fld.lnkCreditNsNs) }

/-- The waiting frames that are ready: the oldest of each class that has credit and room. -/
def State.readyFrames (s : State) (p : Nat) : List OutFrame :=
  (s.port p).outq.filter fun o => s.credited p o.frame && s.replayRoom p o.frame &&
    ((s.port p).outq.find? fun g => sameLane g.frame o.frame) == some o

/-- The frame that the output arbiter grants: VC3 first; VC2 when a grant is due after 63 frames of others; VC0 and VC1 frame by
frame in turn; VC2 when neither has a frame ready (R312). -/
def State.granted (s : State) (p : Nat) : Option OutFrame :=
  let of (v : Nat) : Option OutFrame := (s.readyFrames p).find? fun o => o.frame.vc.toNat = v
  let due := if 63 ≤ (s.port p).sinceVc2 then of 2 else none
  (of 3).or (due.or ((of (1 - (s.port p).lastVc)).or ((of (s.port p).lastVc).or (of 2))))

/-- Sends the waiting frames that are ready, as the arbiter grants them. The first argument bounds the walk. -/
def State.drainPort (p : Nat) : Nat → State → State
  | 0, s => s
  | n + 1, s =>
    match s.granted p with
    | none => s
    | some o => State.drainPort p n ((s.modPort p fun k => { k with outq := k.outq.erase o }).putOnLink p o)

/-! Routing. -/

/-- The fault table's state of a link end, if it holds one. -/
def State.faultState (s : State) (a p : Nat) : Option Nat :=
  (s.faults.find? fun f => f.addr = a && f.port = p).map (·.state)

/-- Whether a link end is marked out of service, here or in the fault table (R325). -/
def State.endOut (s : State) (a p : Nat) : Bool :=
  if a = s.self then !s.inService p else match s.faultState a p with | some st => st ≠ 4 | none => false

/-- Whether no link on the run of `k` links from `a` is marked out of service. -/
def State.pathOpen (s : State) (d : Nat) (plus : Bool) : Nat → Nat → Bool
  | _, 0 => true
  | a, k + 1 =>
    let b := s.besides a d plus
    !s.endOut a (portOf d plus) && !s.endOut b (portOf d (!plus)) && State.pathOpen s d plus b k

/-- The class of the hop through a port: class 1 across the wraparound link, else the class it has in its dimension,
class 0 when it enters one (R326). -/
def State.hopClass (s : State) (f : Frame) (from_ : Option Nat) (d : Nat) (plus : Bool) : Bool :=
  let x := coordOf s.self d
  if (if plus then x + 1 = s.extent d else x = 0) then true
  else (from_.map (· / 2) = some d) && f.cls

/-- What routing decides: deliver here, drop, or send on a port. -/
inductive Way where
  | here
  | drop
  | out (port : Nat) (f : Frame)
  deriving DecidableEq, Repr

/-- The next port of a frame at this module (R325). -/
def State.nextPort (s : State) (f : Frame) (from_ : Option Nat) : Way :=
  let dst := f.dst.toNat
  let differs (d : Nat) : Bool := coordOf s.self d ≠ coordOf dst d
  let side := f.sidestep && differs f.blocked.toNat
  match (if side then some f.blocked.toNat else (List.range 4).find? differs) with
  | none => .here
  | some d =>
    let f := if side then f else { f with sidestep := false }
    let n := s.extent d
    let plus := (coordOf dst d + n - coordOf s.self d) % n
    let minus := n - plus
    let hops (up : Bool) := if up then plus else minus
    let first := decide (plus ≤ minus)
    match [first, !first].find? fun up => s.pathOpen d up s.self (hops up) with
    | some up => .out (portOf d up) { f with cls := s.hopClass f from_ d up }
    | none =>
      if f.sidesteps = 2 then .drop
      else
        match [1, 2, 3].find? fun k =>
            let e := (d + k) % 4
            decide (1 < s.extent e) && s.inService (portOf e true) with
        | none => .drop
        | some k =>
          .out (portOf ((d + k) % 4) true)
            { f with sidestep := true, blocked := BitVec.ofNat 2 d, sidesteps := f.sidesteps + 1, cls := true }

/-- Sends a routed frame out with one link more to its count; `came` is the port it arrived on, and `orig` the frame as it was
routed. -/
def State.sendFrom (s : State) (p : Nat) (f : Frame) (came : Option Nat) (orig : Frame) : State :=
  s.transmit p { frame := { f with hops := f.hops + 1 }, came := came, orig := orig }

/-- Sends a frame of this module out of a port. -/
def State.sendOut (s : State) (p : Nat) (f : Frame) : State := s.sendFrom p f none f

/-- A frame dropped under R325 is counted, and its source is told, unless that is this module. -/
def State.dropUnreachable (s : State) (f : Frame) : State :=
  let s := s.addSat Reg.fabDrops Fld.fabDropsUnreachable 1
  if f.src.toNat = s.self then s
  else
    match s.nextPort (s.newFrame f.src.toNat 0xA 3 [] (frameHeader f)) none with
    | .out p g => s.sendOut p g
    | _ => s.addSat Reg.fabDrops Fld.fabDropsUnreachable 1

/-- Routes a frame that is at this module (R325). A frame for this module itself goes nowhere: every module drops
a frame whose SRC is its own address (R322). -/
def State.route (s : State) (from_ : Option Nat) (f : Frame) : State :=
  match s.nextPort f from_ with
  | .here => s
  | .drop => s.dropUnreachable f
  | .out p g => s.sendFrom p g from_ f

/-- Sends a frame of this module towards its destination. -/
def State.sendFrame (s : State) (f : Frame) : State := s.route none f

/-- Sends a BLOCK or COPY frame, which stays held until it is acknowledged (R324). -/
def State.sendHeld (s : State) (f : Frame) : State :=
  State.sendFrame { s with heldFrames := s.heldFrames ++ [{ frame := f, sent := s.now }] } f

/-! The way to the time root. -/

/-- The hops between this module and the time root (R198). -/
def State.rootHops (s : State) : Nat :=
  (List.range 4).foldl (fun h d =>
    let n := s.extent d
    let plus := (coordOf Config.timeRoot.toNat d + n - coordOf s.self d % n) % n
    h + min plus (n - plus)) 0

/-- The parent port: in the first dimension that differs from the root's whose port is in service, the direction of
fewer hops, and the minus port when both need as many (R198). -/
def State.parentPort (s : State) : Option Nat :=
  (List.range 4).findSome? fun d =>
    let n := s.extent d
    let plus := (coordOf Config.timeRoot.toNat d + n - coordOf s.self d % n) % n
    if coordOf Config.timeRoot.toNat d = coordOf s.self d then none
    else
      let p := portOf d (decide (plus < n - plus))
      if s.inService p then some p else none

/-- Shows the parent port of a module with SOURCE 3 (Table 7.8). -/
def State.showParent (s : State) : State :=
  if s.fld Reg.sckCtl Fld.sckCtlSource ≠ 3 then s
  else
    match s.parentPort with
    | some p =>
      ((s.setFld Reg.sckStatus Fld.sckStatusParent p).setFld Reg.sckStatus Fld.sckStatusParentValid 1).setFld
        Reg.sckStatus Fld.sckStatusHops s.rootHops
    | none => s.setFld Reg.sckStatus Fld.sckStatusParentValid 0

/-! State changes. -/

/-- The acts whose rings a port carries: those whose Carousel ring runs along its dimension (R244, R277). -/
def State.portActs (s : State) (p : Nat) : List Nat :=
  (List.range 9).filter fun a => a ≠ 0 && s.actEnabled a && s.fld (Reg.carBktCtl a) Fld.carBktCtlAxis = p / 2

/-- The FABRIC event of a state change (R315, Table 11.4). -/
def State.fabricRec (s : State) (p old new reason : Nat) : EvRec :=
  let down := (old = 4 && new ≠ 4) || new = 6 || new = 7
  let status := if down then 0x52 else if new = 4 then 0 else (openStatus (Config.portStatus old new))
  let severity := if new = 5 ∨ new = 1 then 1 else if new = 6 ∨ new = 7 then 2 else openSeverity 0x0B status
  let st := s.reg (Reg.lnkStatus p)
  plainRec 0x0B severity status 0 s.now
    (leBytes 1 p ++ leBytes 1 old ++ leBytes 1 new ++ leBytes 1 reason ++ leBytes 2 (bits st 16 16) ++
      leBytes 1 (bits st 32 3) ++ leBytes 1 0 ++ leBytes 8 (s.reg (Reg.lnkPartnerSerial p)))

/-- The 8 payload bytes of a LINK_STATE notice (Table 11.7). -/
def linkStateBytes (a p state gen : Nat) : Bytes :=
  leBytes 4 (a % 65536 + p * 2 ^ 16 + state * 2 ^ 19) ++ leBytes 4 gen

/-- Sends a LINK_STATE notice on every in-service port but one (R327). -/
def State.notice (s : State) (not_ : Option Nat) (a p state gen : Nat) : State :=
  s.each (s.openPorts.filter fun q => some q ≠ not_) fun q s =>
    s.sendOut q (s.newFrame (s.partner q) 8 3 [] (linkStateBytes a p state gen))

/-- Changes the state of a port: its registers, its FABRIC event, LINK_STATE on every in-service port, and its
frames routed again when it leaves service (R313 to R315, R327). -/
def State.setPort (s : State) (p new reason : Nat) : State :=
  let old := s.portState p
  if old = new then s
  else
    let s := s.setFld (Reg.lnkStatus p) Fld.lnkStatusState new
    let s := if reason = 0 then s else s.setFld (Reg.lnkStatus p) Fld.lnkStatusReason reason
    let keep := new = 2 || new = 3 || new = 4 || new = 5
    let s := if keep then s
      else (s.setFld (Reg.lnkStatus p) Fld.lnkStatusLanes 0).setFld (Reg.lnkStatus p) Fld.lnkStatusEncrypted 0
    let again := if old = 4 then (s.port p).outq ++ (s.port p).unacked.map (·.2) else []
    let s := s.modPort p fun k =>
      let k := if keep then k
        else { k with hello := none, ownHello := none, sentProof := false, keys := none, rekeying := false }
      let k := if old = 4 then { k with outq := [], unacked := [], sent := [], creditAt := [], openRx := [] } else k
      { k with since := s.now, generation := k.generation + 1,
               degrades := if new = 5 then k.degrades ++ [s.now] else k.degrades }
    let s := if new = 1 ∧ old ≠ 0 then s.addSat (Reg.lnkRetry p) Fld.lnkRetryRetrains 1 else s
    let s := s.broadcast (s.portActs p) (s.fabricRec p old new reason)
    let s := (s.notice none s.self p new (s.port p).generation).showParent
    s.each again fun o s => s.route o.came o.orig

/-- The order in which conditions of one tick take effect: FAULTY, QUARANTINED, DEGRADED, TRAINING (R315). -/
def stateRank (st : Nat) : Nat := match st with | 7 => 4 | 6 => 3 | 5 => 2 | 1 => 1 | _ => 0

/-- A condition of Table 11.3 takes a port out of service. Of two that arise in one tick the one higher in the order of R315 takes
effect, whichever came first; each change writes its event (DESIGN CHOICE, log 168). -/
def State.leavePort (s : State) (p new reason : Nat) : State :=
  if s.portState p = 4 then (s.setPort p new reason).modPort p fun k => { k with left := some s.now }
  else if (s.port p).left = some s.now && decide (1 ≤ stateRank (s.portState p)) then
    if stateRank (s.portState p) < stateRank new then s.setPort p new reason else s
  else s.setPort p new reason

/-- Whether a port is IN_SERVICE, or left it in this tick by a condition (R315). -/
def State.served (s : State) (p : Nat) : Bool := s.inService p || (s.port p).left = some s.now

/-- Stamps that lie within the last `span` ticks. -/
def recent (now span : Nat) (l : List Nat) : List Nat := l.filter fun t => decide (now < t + span)

/-- A port leaves service to retrain, or becomes FAULTY at the third retrain within a second (R310, Table 11.3). -/
def State.retrain (s : State) (p : Nat) : State :=
  let l := recent s.now 1000000000 (s.port p).retrains ++ [s.now]
  let s := s.modPort p fun k => { k with retrains := l }
  if 3 ≤ l.length then s.leavePort p 7 11 else s.leavePort p 1 0

/-! Frames of the Safety Net. -/

/-- The 32 bytes of a HEARTBEAT payload (Table 12.3). -/
def heartbeatBytes (kind subject step stamp tag : Nat) : Bytes :=
  leBytes 1 kind ++ leBytes 1 0 ++ leBytes 2 subject ++ leBytes 4 step ++ leBytes 8 stamp ++ leBytes 2 tag ++
    List.replicate 14 0

/-- Sends a HEARTBEAT of a kind (Table 12.3). -/
def State.heartbeat (s : State) (dst kind subject step tag : Nat) : State :=
  s.sendFrame (s.newFrame dst 9 3 [] (heartbeatBytes kind subject step s.now tag))

end Sys2Proof.Machine
end

