-- ==== Sys2Proof/Machine/Arrive.lean ====
section
/-! DEFINITION. What every arriving frame passes: the GCM tag (R319), the control-frame rate, the address checks
(R322, R330), its CRC, and the condition of its type (R323). -/

namespace Sys2Proof.Machine

/-- One second of the Show Clock. -/
def second : Nat := 1000000000

/-- Starts the port's counts of this Show Clock second anew, when the second has changed (R330). -/
def State.portSecond (s : State) (p : Nat) : State :=
  s.modPort p fun k =>
    if k.second = s.now / second then k else { k with second := s.now / second, tagFails := 0, addrDrops := 0 }

/-- A frame whose tag fails is counted; 16 within a second quarantine the port (R319, R330). -/
def State.tagFail (s : State) (p : Nat) : State :=
  let s := (s.portSecond p).addSat (Reg.lnkHostile p) Fld.lnkHostileTagFails 1
  let s := s.modPort p fun k => { k with tagFails := k.tagFails + 1 }
  if 16 ≤ (s.port p).tagFails then s.leavePort p 6 7 else s

/-- A frame dropped under R322 is counted; 1,024 within a second quarantine the port (R330). -/
def State.addrDrop (s : State) (p : Nat) : State :=
  let s := (s.portSecond p).addSat (Reg.lnkHostile p) Fld.lnkHostileAddrDrops 1
  let s := s.modPort p fun k => { k with addrDrops := k.addrDrops + 1 }
  if 1024 ≤ (s.port p).addrDrops then s.leavePort p 6 8 else s

/-- Whether a control frame exceeds CTL_RATE in its 1 ms window, with the window's new count (R330). -/
def State.ctlWindow (s : State) (p : Nat) : State × Bool :=
  let w := s.now / 1000000
  let n := if (s.port p).window = w then (s.port p).ctlCount + 1 else 1
  let s := s.modPort p fun k => { k with window := w, ctlCount := n }
  (s, decide (s.fld (Reg.lnkCtl p) Fld.lnkCtlCtlRate < n))

/-- Whether a frame's type is one of Table 11.7. -/
def typeKnown (t : Nat) : Bool := decide (1 ≤ t) && decide (t ≤ 0xC)

/-- The checks of R322 that need no state of the receiver's own beyond its address. -/
def State.addressed (s : State) (f : Frame) : Bool :=
  typeKnown f.typ.toNat && s.inExtents f.src.toNat && s.inExtents f.dst.toNat && f.src.toNat ≠ s.self &&
    decide (f.hops.toNat ≤ 48)

/-- A frame has left its receive buffer: its credits go back to the partner, and a port with keys counts it (R312, R319). -/
def State.freeBuffer (s : State) (p : Nat) (f : Frame) : State :=
  (s.modPort p fun k => { k with rxCount := if k.keys.isSome then k.rxCount + 1 else k.rxCount }).sendIdle p false
    (f.vc.toNat, b2n f.cls, frameFlits f)

/-- The state after a frame's arrival and whether it may go on: tag, rate, addresses. -/
def State.screen (s : State) (p : Nat) (f : Frame) : State × Bool :=
  let s := s.freeBuffer p f
  if (s.port p).keys.isSome ∧ !(f.enc && f.tagOk) then (s.tagFail p, false)
  else
    let r := if 4 ≤ f.typ.toNat then s.ctlWindow p else (s, false)
    if r.2 then (r.1.addSat (Reg.lnkHostile p) Fld.lnkHostileCtlDrops 1, false)
    else if s.addressed f then (r.1, true)
    else
      let s := if 48 < f.hops.toNat then r.1.addSat Reg.fabDrops Fld.fabDropsHops 1 else r.1
      (s.addrDrop p, false)

/-- Whether a frame's CRC agrees; a BLOCK carries none (Table 11.6). -/
def frameCrc (f : Frame) : Bool := f.typ.toNat = 1 || crc32c (f.ext ++ f.payload) = f.crc.toNat

/-- A frame of a type arrives for this module: after the checks, its effect. On a port that carries no data, a frame
of another type or for another module is not this event, and nothing happens. A lost module delivers no frame to an act
(R337). -/
def State.arrive (s : State) (p : Nat) (f : Frame) (typ : Nat) (eff : State → State) : State :=
  if (s.portState p = 4 ∨ s.portState p = 5) ∧ f.typ.toNat = typ ∧ f.dst.toNat = s.self then
    let r := s.screen p f
    if !r.2 then r.1
    else if s.phase = 0xF ∧ typ ≤ 2 then r.1
    else if frameCrc f then eff r.1 else r.1
  else s

/-- A control frame's effect under its condition, or its drop (R322, R323). -/
def State.onlyIf (s : State) (p : Nat) (cond : Bool) (eff : State → State) : State :=
  if cond then eff s else s.addrDrop p

/-- Sends an acknowledgement of a BLOCK or of a COPY (Table 11.7). -/
def State.sendAck (s : State) (dst : Nat) (entry : Bytes) : State := s.sendFrame (s.newFrame dst 4 3 [] entry)

/-- The ACK entry of a block. -/
def blockAck (tag hop first : Nat) : Bytes :=
  leBytes 8 ((tag % 2 ^ 16) * 2 + (hop % 16) * 2 ^ 17 + (first % 2 ^ 32) * 2 ^ 21)

/-- The ACK entry of a copy message. -/
def copyAck (queue msgSeq : Nat) : Bytes := leBytes 8 (1 + (queue % 2 ^ 16) * 2 + (msgSeq % 2 ^ 32) * 2 ^ 17)

end Sys2Proof.Machine
end

