-- ==== Sys2Proof/Machine/Float.lean ====
section
/-! DEFINITION. Exact dyadic numbers and IEEE 754 arithmetic on binary32 and binary64 codes (R54, R55). A code
is a natural number; an operation answers the result's code and the flags it raises, as bits of NUM.FLAGS. -/

namespace Sys2Proof.Machine

/-! Dyadic numbers. -/

/-- Zero. -/
def Dy.zero : Dy := ⟨0, 0⟩

/-- The integer mantissa of `d` at exponent `e`, which is at most its own. -/
def Dy.at (d : Dy) (e : Int) : Int := d.m * 2 ^ (d.e - e).toNat

/-- Exact sum. -/
def Dy.add (a b : Dy) : Dy :=
  let e := min a.e b.e
  ⟨a.at e + b.at e, e⟩

/-- Negation. -/
def Dy.neg (a : Dy) : Dy := ⟨-a.m, a.e⟩

/-- Exact product. -/
def Dy.mul (a b : Dy) : Dy := ⟨a.m * b.m, a.e + b.e⟩

/-- Magnitude. -/
def Dy.abs (a : Dy) : Dy := ⟨(a.m.natAbs : Int), a.e⟩

/-- Whether `a < b`. -/
def Dy.lt (a b : Dy) : Bool :=
  let e := min a.e b.e
  decide (a.at e < b.at e)

/-- Whether `a ≤ b`. -/
def Dy.le (a b : Dy) : Bool := !(b.lt a)

/-! IEEE formats. -/

/-- An IEEE binary format: exponent bits and fraction bits. -/
structure IFmt where
  ew : Nat
  fw : Nat
  deriving DecidableEq, Repr

/-- binary32. -/
def F32 : IFmt := ⟨8, 23⟩
/-- binary64. -/
def F64 : IFmt := ⟨11, 52⟩

/-- The exponent bias. -/
def IFmt.bias (F : IFmt) : Nat := 2 ^ (F.ew - 1) - 1
/-- The bits of a code. -/
def IFmt.width (F : IFmt) : Nat := 1 + F.ew + F.fw
/-- The biased exponent of infinities and NaNs. -/
def IFmt.emaxField (F : IFmt) : Nat := 2 ^ F.ew - 1
/-- The exponent of the smallest positive value. -/
def IFmt.lsb (F : IFmt) : Int := 1 - (F.bias : Int) - (F.fw : Int)
/-- The code of an infinity. -/
def IFmt.inf (F : IFmt) (neg : Bool) : Nat := F.emaxField * 2 ^ F.fw + b2n neg * 2 ^ (F.ew + F.fw)
/-- The canonical NaN (R54). -/
def IFmt.nan (F : IFmt) : Nat := F.inf false + 2 ^ (F.fw - 1)
/-- The code of a zero. -/
def IFmt.zero (F : IFmt) (neg : Bool) : Nat := b2n neg * 2 ^ (F.ew + F.fw)
/-- The largest finite magnitude. -/
def IFmt.huge (F : IFmt) (neg : Bool) : Nat := F.inf neg - 1

/-- Sign bit of a code. -/
def IFmt.sign (F : IFmt) (c : Nat) : Bool := bit c (F.ew + F.fw)
/-- Biased exponent of a code. -/
def IFmt.exp (F : IFmt) (c : Nat) : Nat := bits c F.fw F.ew
/-- Fraction of a code. -/
def IFmt.frac (F : IFmt) (c : Nat) : Nat := bits c 0 F.fw
/-- The code without its sign. -/
def IFmt.mag (F : IFmt) (c : Nat) : Nat := bits c 0 (F.ew + F.fw)
/-- Whether a code is a NaN. -/
def IFmt.isNan (F : IFmt) (c : Nat) : Bool := F.exp c = F.emaxField && F.frac c ≠ 0
/-- Whether a code is a signalling NaN. -/
def IFmt.isSnan (F : IFmt) (c : Nat) : Bool := F.isNan c && !(bit c (F.fw - 1))
/-- Whether a code is an infinity. -/
def IFmt.isInf (F : IFmt) (c : Nat) : Bool := F.exp c = F.emaxField && F.frac c = 0
/-- Whether a code is finite. -/
def IFmt.isFin (F : IFmt) (c : Nat) : Bool := F.exp c ≠ F.emaxField
/-- Whether a code is a zero. -/
def IFmt.isZero (F : IFmt) (c : Nat) : Bool := F.mag c = 0
/-- A NaN quieted (R54). -/
def IFmt.quiet (F : IFmt) (c : Nat) : Nat := if bit c (F.fw - 1) then c else c + 2 ^ (F.fw - 1)

/-- The value of a finite code. -/
def IFmt.value (F : IFmt) (c : Nat) : Dy :=
  let m : Nat := if F.exp c = 0 then F.frac c else F.frac c + 2 ^ F.fw
  let e : Int := F.lsb + ((F.exp c - 1 : Nat) : Int)
  ⟨if F.sign c then -(m : Int) else m, e⟩

/-- Flag bits of NUM.FLAGS (Table 2.7). -/
def flSat : Nat := 1
/-- NAN. -/
def flNan : Nat := 2
/-- FLUSH. -/
def flFlush : Nat := 4
/-- SIDE_OVF. -/
def flSideOvf : Nat := 8
/-- POISON. -/
def flPoison : Nat := 16
/-- TILE_NUM. -/
def flTileNum : Nat := 32
/-- IEEE_NV. -/
def flNv : Nat := 256
/-- IEEE_DZ. -/
def flDz : Nat := 512
/-- IEEE_OF. -/
def flOf : Nat := 1024
/-- IEEE_UF. -/
def flUf : Nat := 2048
/-- IEEE_NX. -/
def flNx : Nat := 4096

/-- Bits of a natural number. -/
def bitLen (n : Nat) : Nat := if n = 0 then 0 else Nat.log2 n + 1

/-- Rounds `m + δ` units, where `r` is what was cut off at `sh` bits and `st` whether more lies below, in the
direction `rdir` (0 ties to even, 1 toward +∞, 2 toward −∞, 3 toward zero), to an integer. -/
def roundShift (rdir : Nat) (neg : Bool) (m sh : Nat) (st : Bool) : Nat :=
  let hi := m >>> sh
  let r := m % 2 ^ sh
  let inexact := decide (r ≠ 0) || st
  let up : Bool :=
    if rdir = 0 then
      if sh = 0 then false
      else decide (2 ^ (sh - 1) < r) || (r = 2 ^ (sh - 1) && (st || hi % 2 = 1))
    else if rdir = 1 then inexact && !neg
    else if rdir = 2 then inexact && neg
    else false
  if up then hi + 1 else hi

/-- Rounds the magnitude `m × 2^e` (plus something below one unit when `st`; then `m` has more bits than the
format) to the format: the code and the flags OF, UF, NX. Tininess is detected after rounding (R54). -/
def IFmt.round (F : IFmt) (rdir : Nat) (neg : Bool) (m : Nat) (e : Int) (st : Bool) : Nat × Nat :=
  if m = 0 ∧ !st then (F.zero neg, 0)
  else
    let p := F.fw + 1
    let qu : Int := (bitLen m : Int) + e - p
    let q := max qu F.lsb
    let shr := (q - e).toNat
    let shl := (e - q).toNat
    let inexact := decide ((m * 2 ^ shl) % 2 ^ shr ≠ 0) || st
    let r := roundShift rdir neg (m * 2 ^ shl) shr st
    let ru := roundShift rdir neg (m * 2 ^ (e - qu).toNat) (qu - e).toNat st
    let tiny := (⟨ru, qu⟩ : Dy).lt ⟨1, 1 - (F.bias : Int)⟩
    -- a carry out of the significand raises the exponent by itself in the code
    let code := if r < 2 ^ F.fw then r
      else ((q - F.lsb).toNat + 1) * 2 ^ F.fw + (r - 2 ^ F.fw)
    if F.emaxField * 2 ^ F.fw ≤ code then
      let toInf := rdir = 0 || (rdir = 1 && !neg) || (rdir = 2 && neg)
      (if toInf then F.inf neg else F.huge neg, flOf ||| flNx)
    else
      (code + b2n neg * 2 ^ (F.ew + F.fw),
        if inexact then (if tiny then flUf ||| flNx else flNx) else 0)

/-- Rounds an exact dyadic number; `zneg` is the sign of an exact zero. -/
def IFmt.roundDy (F : IFmt) (rdir : Nat) (d : Dy) (zneg : Bool) : Nat × Nat :=
  if d.m = 0 then (F.zero zneg, 0) else F.round rdir (d.m < 0) d.m.natAbs d.e false

/-- The first NaN among operands, quieted, with NV when any is signalling (R54). -/
def IFmt.nanOf (F : IFmt) (ops : List Nat) : Option (Nat × Nat) :=
  match ops.find? F.isNan with
  | none => none
  | some c => some (F.quiet c, if ops.any F.isSnan then flNv else 0)

/-- Addition. -/
def IFmt.add (F : IFmt) (rdir a b : Nat) : Nat × Nat :=
  match F.nanOf [a, b] with
  | some r => r
  | none =>
    if F.isInf a then
      if F.isInf b && F.sign a != F.sign b then (F.nan, flNv) else (a, 0)
    else if F.isInf b then (b, 0)
    else F.roundDy rdir ((F.value a).add (F.value b))
      (if F.isZero a && F.isZero b && F.sign a == F.sign b then F.sign a else rdir = 2)

/-- The code with its sign changed. -/
def IFmt.negate (F : IFmt) (c : Nat) : Nat :=
  if F.sign c then c - 2 ^ (F.ew + F.fw) else c + 2 ^ (F.ew + F.fw)

/-- Subtraction. -/
def IFmt.sub (F : IFmt) (rdir a b : Nat) : Nat × Nat :=
  match F.nanOf [a, b] with
  | some r => r
  | none => F.add rdir a (F.negate b)

/-- Multiplication. -/
def IFmt.mul (F : IFmt) (rdir a b : Nat) : Nat × Nat :=
  let neg := F.sign a != F.sign b
  match F.nanOf [a, b] with
  | some r => r
  | none =>
    if F.isInf a || F.isInf b then
      if F.isZero a || F.isZero b then (F.nan, flNv) else (F.inf neg, 0)
    else F.roundDy rdir ((F.value a).mul (F.value b)) neg

/-- Fused multiply-add a × b + c, with one rounding. Whether 0 × ∞ plus a quiet NaN is an invalid operation is left
to the implementation by IEEE 754-2019 (log 101). -/
def IFmt.fma (F : IFmt) (rdir a b c : Nat) : Nat × Nat :=
  let neg := F.sign a != F.sign b
  let bad := (F.isInf a && F.isZero b) || (F.isZero a && F.isInf b)
  match F.nanOf [a, b, c] with
  | some r => (r.1, r.2 ||| (if bad && Config.fmaInvalid then flNv else 0))
  | none =>
    if bad then (F.nan, flNv)
    else if F.isInf a || F.isInf b then
      if F.isInf c && F.sign c != neg then (F.nan, flNv) else (F.inf neg, 0)
    else if F.isInf c then (c, 0)
    else
      let pz := F.isZero a || F.isZero b
      F.roundDy rdir (((F.value a).mul (F.value b)).add (F.value c))
        (if pz && F.isZero c && F.sign c == neg then neg else rdir = 2)

/-- Division. -/
def IFmt.div (F : IFmt) (rdir a b : Nat) : Nat × Nat :=
  let neg := F.sign a != F.sign b
  match F.nanOf [a, b] with
  | some r => r
  | none =>
    if F.isInf a then
      if F.isInf b then (F.nan, flNv) else (F.inf neg, 0)
    else if F.isInf b then (F.zero neg, 0)
    else if F.isZero b then
      if F.isZero a then (F.nan, flNv) else (F.inf neg, flDz)
    else if F.isZero a then (F.zero neg, 0)
    else
      let x := F.value a
      let y := F.value b
      let k := 2 * F.fw + 8
      let n := x.m.natAbs * 2 ^ k
      F.round rdir neg (n / y.m.natAbs) (x.e - y.e - k) (decide (n % y.m.natAbs ≠ 0))

/-- Integer square root by bisection of the result's bits, from the highest. -/
def isqrtStep (n : Nat) : Nat → Nat → Nat
  | 0, r => r
  | k + 1, r =>
    let c := r + 2 ^ k
    isqrtStep n k (if c * c ≤ n then c else r)

/-- The integer square root, rounded down. -/
def isqrt (n : Nat) : Nat := isqrtStep n (bitLen n / 2 + 1) 0

/-- Square root. -/
def IFmt.sqrt (F : IFmt) (rdir a : Nat) : Nat × Nat :=
  match F.nanOf [a] with
  | some r => r
  | none =>
    if F.isZero a then (a, 0)
    else if F.sign a then (F.nan, flNv)
    else if F.isInf a then (a, 0)
    else
      let x := F.value a
      let k : Nat := 2 * F.fw + 8
      let odd : Nat := if x.e % 2 = 0 then 0 else 1
      let n := x.m.natAbs * 2 ^ (2 * k + odd)
      let r := isqrt n
      F.round rdir false r ((x.e - odd) / 2 - k) (decide (r * r ≠ n))

/-- Comparison of two codes: none when unordered, else whether a < b, a = b (zeros equal). -/
def IFmt.cmp (F : IFmt) (a b : Nat) : Option (Bool × Bool) :=
  if F.isNan a || F.isNan b then none
  else
    let key (c : Nat) : Int := if F.sign c then -(F.mag c : Int) else (F.mag c : Int)
    some (decide (key a < key b), decide (key a = key b))

/-- Conversion between IEEE formats. -/
def IFmt.convert (F G : IFmt) (rdir a : Nat) : Nat × Nat :=
  if F.isNan a then
    (G.inf (F.sign a) + 2 ^ (G.fw - 1) +
      (if G.fw ≤ F.fw then (F.frac a >>> (F.fw - G.fw)) % 2 ^ (G.fw - 1)
       else (F.frac a % 2 ^ (F.fw - 1)) <<< (G.fw - F.fw)),
      if F.isSnan a then flNv else 0)
  else if F.isInf a then (G.inf (F.sign a), 0)
  else G.roundDy rdir (F.value a) (F.sign a)

/-- Conversion of an integer, rounded. -/
def IFmt.ofInt (F : IFmt) (rdir : Nat) (i : Int) : Nat × Nat := F.roundDy rdir ⟨i, 0⟩ false

/-- Rounds a finite value to an integer in a direction. -/
def Dy.toInt (rdir : Nat) (d : Dy) : Int × Bool :=
  let n := d.m.natAbs * 2 ^ d.e.toNat
  let sh := (-d.e).toNat
  let r := roundShift rdir (d.m < 0) n sh false
  (if d.m < 0 then -(r : Int) else r, decide (n % 2 ^ sh ≠ 0))

/-- binary32 addition, nearest even, as everywhere outside the vector engine (R55). -/
def f32add (a b : Nat) : Nat := (F32.add 0 a b).1
/-- binary32 subtraction, nearest even. -/
def f32sub (a b : Nat) : Nat := (F32.sub 0 a b).1
/-- binary32 multiplication, nearest even. -/
def f32mul (a b : Nat) : Nat := (F32.mul 0 a b).1
/-- binary32 fused multiply-add, nearest even. -/
def f32fma (a b c : Nat) : Nat := (F32.fma 0 a b c).1
/-- binary32 division, nearest even. -/
def f32div (a b : Nat) : Nat := (F32.div 0 a b).1
/-- binary32 square root, nearest even. -/
def f32sqrt (a : Nat) : Nat := (F32.sqrt 0 a).1
/-- The binary32 nearest an exact number. -/
def f32of (d : Dy) : Nat := (F32.roundDy 0 d false).1

end Sys2Proof.Machine
end

