-- ==== Sys2Proof/Machine/Formats.lean ====
section
/-! DEFINITION. The short formats (R38 to R53), the keyed generator (R59), rounding to short formats (R56 to
R58), conversion of single values (R62) and of groups (R64, R65), and the reading of stored groups. -/

namespace Sys2Proof.Machine

/-! The format byte. -/

/-- TYPE of a format byte (Table 2.1). -/
def fmtType (f : Nat) : Nat := f / 16 % 16
/-- Elements per group, 0 without block scaling. -/
def fmtG (f : Nat) : Nat := match f / 4 % 4 with | 0 => 0 | 1 => 32 | 2 => 64 | _ => 128
/-- Side-list entries per group. -/
def fmtE (f : Nat) : Nat := match f % 4 with | 0 => 0 | 1 => 2 | 2 => 4 | _ => 8
/-- Whether a format byte is legal (R39). -/
def fmtLegal (f : Nat) : Bool :=
  let t := fmtType f
  decide (t < 8) && (fmtG f = 0 || t = 1 || t = 2 || t = 3) && (fmtE f = 0 || (fmtG f ≠ 0 && (t = 1 || t = 2)))
/-- Bits of one element of a type. -/
def fmtBits (f : Nat) : Nat :=
  match fmtType f with | 0 => 8 | 1 => 4 | 2 => 8 | 3 => 8 | 4 => 16 | 5 => 8 | 6 => 32 | _ => 64
/-- The bytes that `n` elements take in an element plane. -/
def elemBytes (f n : Nat) : Nat := (n * fmtBits f + 7) / 8

/-! Values of codes. -/

/-- The magnitude of an OX4 magnitude code, in quarters (Table 2.2). -/
def ox4Units (c : Nat) : Nat :=
  match c % 8 with | 0 => 0 | 1 => 1 | 2 => 2 | 3 => 4 | 4 => 6 | 5 => 8 | 6 => 12 | _ => 16
/-- The magnitude of an OX8 magnitude code, in units of 2^−10 (R42). -/
def ox8Units (c : Nat) : Nat := if c / 8 = 0 then c % 8 else (8 + c % 8) * 2 ^ (c / 8 - 1)
/-- The magnitude of an OX8U code, in units of 2^−11 (R44). -/
def ox8uUnits (c : Nat) : Nat := if c / 16 = 0 then c % 16 else (16 + c % 16) * 2 ^ (c / 16 - 1)

/-- The value of an OXS code 0x01 to 0xFE (R48). -/
def oxsValue (c : Nat) : Dy := ⟨((4 + c % 4 : Nat) : Int), ((c / 4 : Nat) : Int) - 42⟩

/-- A signed value. -/
def signed (neg : Bool) (m : Nat) (e : Int) : Dy := ⟨if neg then -(m : Int) else m, e⟩

/-- The value of an OX16 code; `none` for NaN (R46, R47). A zero's sign is `ox16Wide`'s to keep: exact sums have none. -/
def ox16Value (c : Nat) : Option Dy :=
  let e := bits c 7 8
  if e = 255 then none
  else if e = 0 then some Dy.zero
  else some (signed (bit c 15) (128 + c % 128) ((e : Int) - 134))

/-- An element code as a value: `block` says whether the ESC code stands for the side list (R40 to R46). The
escape code inside a block is reported by `isEsc`, not here. -/
def codeOpd (f c : Nat) : Opd :=
  match fmtType f with
  | 1 => if c % 16 = 8 then .val Dy.zero else .val (signed (bit c 3) (ox4Units c) (-2))
  | 2 => if c % 256 = 0x80 then .val Dy.zero
    else if c % 128 = 0x7F then .nan else .val (signed (bit c 7) (ox8Units (c % 128)) (-10))
  | 3 => if c % 256 = 0xFF then .nan else .val (signed false (ox8uUnits (c % 256)) (-11))
  | 4 => match ox16Value (c % 65536) with | none => .nan | some d => .val d
  | 5 => if c % 256 = 0xFF then .nan else if c % 256 = 0 then .val Dy.zero else .val (oxsValue (c % 256))
  | _ => .val ⟨((c : Nat) : Int), 0⟩

/-- Whether a code of a block form is the escape code. -/
def isEsc (f c : Nat) : Bool :=
  fmtG f ≠ 0 && ((fmtType f = 1 && c % 16 = 8) || (fmtType f = 2 && c % 256 = 0x80))

/-- The largest finite magnitude of an element type, and its scale's bound (4, 224, 240). -/
def fmtEmax (f : Nat) : Nat := match fmtType f with | 1 => 4 | 2 => 224 | _ => 240

/-- The element code of a NaN (R64: the NaN code of the type). -/
def fmtNanCode (f : Nat) : Nat := match fmtType f with | 2 => 0x7F | _ => 0xFF

/-- OX16 widened to binary32: sixteen zero bits are appended, but an exponent of 0 gives zero of the code's sign, and
NaN the canonical NaN (R46, R47). -/
def ox16Wide (c : Nat) : Nat :=
  if bits c 7 8 = 255 then F32.nan
  else if bits c 7 8 = 0 then (c % 65536 / 32768) * 2 ^ 31 else (c % 65536) * 65536

/-- The binary32 of an element that fits. -/
def opd32 (x : Opd) : Nat :=
  match x with
  | .val d => f32of d
  | .esc c => ox16Wide c
  | .nan => F32.nan

/-- A widened element: binary32 (R47, R62). -/
def widen32 (f c : Nat) : Nat :=
  match fmtType f with
  | 4 => ox16Wide c
  | 6 => c % 2 ^ 32
  | _ => opd32 (codeOpd f c)

/-! The keyed generator (R59). -/

/-- mix of R59, on 64-bit values. -/
def keyMix (z : Nat) : Nat :=
  let z := ((z ^^^ (z >>> 31)) * 0xA3C59E6B41D7F28D) % 2 ^ 64
  let z := ((z ^^^ (z >>> 29)) * 0x6E1FB54A93C72E39) % 2 ^ 64
  z ^^^ (z >>> 32)

/-- draw16 of R59. -/
def draw16 (seed tensor step index : Nat) : Nat :=
  let z := keyMix (seed % 2 ^ 64)
  let z := keyMix (z ^^^ (tensor % 2 ^ 32))
  let z := keyMix (z ^^^ ((step % 2 ^ 32) * 2 ^ 16))
  bits (keyMix (z ^^^ (index % 2 ^ 48))) 48 16

/-- How a conversion rounds: to nearest even, or stochastically with the keys of R59 less the index. -/
inductive RMode where
  | rne
  | sr (seed tensor step : Nat)
  deriving DecidableEq, Repr

/-- Whether SR takes the upper candidate: draw below floor(part × 2^16 / whole) (R58). -/
def RMode.up (md : RMode) (index part whole : Nat) (tieEven : Bool) : Bool :=
  match md with
  | .rne => decide (whole < 2 * part) || (2 * part = whole && tieEven)
  | .sr seed t st => decide (draw16 seed t st index < part * 2 ^ 16 / whole)

/-! Rounding to a grid of magnitude codes. -/

/-- The largest code, among those of `k` more bits from `c`, whose magnitude times `den` is at most `num`. -/
def gridSearch (units : Nat → Nat) (maxCode num den : Nat) : Nat → Nat → Nat
  | 0, c => c
  | k + 1, c =>
    let t := c + 2 ^ k
    gridSearch units maxCode num den k (if t ≤ maxCode ∧ units t * den ≤ num then t else c)

/-- Rounds the magnitude num/den (in grid units) to a code: the code and whether it saturated (R56 to R58). -/
def gridRound (units : Nat → Nat) (maxCode : Nat) (md : RMode) (index num den : Nat) : Nat × Bool :=
  if units maxCode * den < num then (maxCode, true)
  else
    let lo := gridSearch units maxCode num den 8 0
    if units lo * den = num ∨ lo = maxCode then (lo, false)
    else
      let part := num - units lo * den
      let whole := (units (lo + 1) - units lo) * den
      (if md.up index part whole (lo % 2 = 1) then lo + 1 else lo, false)

/-- A binary32 code's magnitude divided by a scale, as num/den in units of 2^-u: the value itself where the
scale is 1.0. -/
def scaledMag (x scale u : Nat) : Nat × Nat :=
  let d := F32.value x
  let s := oxsValue scale
  let e := d.e - s.e + u
  (d.m.natAbs * 2 ^ e.toNat, s.m.natAbs * 2 ^ (-e).toNat)

/-- OX16 of a binary32 input: the code and the flags (R46, R47, R58, Table 2.6). -/
def toOx16 (md : RMode) (index x : Nat) : Nat × Nat :=
  let neg := b2n (F32.sign x) * 0x8000
  if F32.isNan x then (0x7FC0, flNan)
  else if 0x7F7F0000 < F32.mag x then (neg + 0x7F7F, flSat)
  else
    let m := (F32.value x).m.natAbs
    let e := (F32.value x).e
    if m = 0 then (neg, 0)
    else
      -- an 8-bit significand with unbounded exponent
      let sh := bitLen m - 8
      let lo := m >>> sh
      let r := m % 2 ^ sh
      let up := r ≠ 0 && md.up index r (2 ^ sh) (lo % 2 = 1)
      let v := (if up then lo + 1 else lo)
      let mag : Dy := ⟨((v : Nat) : Int), e + sh⟩
      if mag.lt ⟨1, -126⟩ then (neg, flFlush)
      else
        let c := (F32.roundDy 3 mag false).1
        (neg + c / 65536, 0)

/-- A single binary32 input converted to a short format of type `f`, divided by scale `scale` (0xA0 for none):
the code and the flags (R56 to R58, R62). -/
def toShort (f : Nat) (md : RMode) (index scale x : Nat) : Nat × Nat :=
  let neg := F32.sign x
  match fmtType f with
  | 1 =>
    if F32.isNan x then (0, flNan)
    else if F32.isInf x then (7 + b2n neg * 8, flSat)
    else
      let q := scaledMag x scale 2
      let r := gridRound ox4Units 7 md index q.1 q.2
      ((if r.1 = 0 then 0 else r.1 + b2n neg * 8), if r.2 then flSat else 0)
  | 2 =>
    if F32.isNan x then (0x7F, flNan)
    else if F32.isInf x then (0x7E + b2n neg * 128, flSat)
    else
      let q := scaledMag x scale 10
      let r := gridRound ox8Units 0x7E md index q.1 q.2
      ((if r.1 = 0 then 0 else r.1 + b2n neg * 128), if r.2 then flSat else 0)
  | 3 =>
    if F32.isNan x || (neg && !F32.isZero x) then (0xFF, flNan)
    else if F32.isInf x then (0xFE, flSat)
    else
      let q := scaledMag x scale 11
      let r := gridRound ox8uUnits 0xFE md index q.1 q.2
      (r.1, if r.2 then flSat else 0)
  | 4 => toOx16 md index x
  | _ => (x, 0)

/-! Groups. -/

/-- A converted group: its scale, its element codes, its side-list words, the flags it raised, and how many
elements saturated. -/
structure Group where
  scale : Nat
  codes : List Nat
  side : List Nat
  flags : Nat
  sats : Nat
  deriving DecidableEq, Repr

/-- Inserts an element of (key, place) into a list descending by key, earlier places first among equals. -/
def insDesc (p : Nat × Nat) : List (Nat × Nat) → List (Nat × Nat)
  | [] => [p]
  | q :: l => if q.1 < p.1 then p :: q :: l else q :: insDesc p l

/-- Sorts (key, place) pairs descending by key, ties by lower place. -/
def sortDesc (l : List (Nat × Nat)) : List (Nat × Nat) := l.foldl (fun a p => insDesc p a) []

/-- The largest OXS code below which every scale times emax stays under `a`: the derived scale is one more
(R64). -/
def scaleBelow (a : Dy) (emax : Nat) : Nat → Nat → Nat
  | 0, c => c
  | k + 1, c =>
    let t := c + 2 ^ k
    scaleBelow a emax k (if t ≤ 0xFE ∧ ((oxsValue t).mul ⟨emax, 0⟩).lt a then t else c)

/-- The derived scale of a group's inputs, with its flags (R64). -/
def derivedScale (f : Nat) (xs : List Nat) : Nat × Nat :=
  let m := sortDesc ((indexed 0 xs).filterMap fun p => if F32.isFin p.2 then some (F32.mag p.2, p.1) else none)
  let a := match m[fmtE f]? with | some p => p.1 | none => 0
  if a = 0 then (0xA0, 0)
  else
    let s := scaleBelow (F32.value a) (fmtEmax f) 8 0 + 1
    if 0xFE < s then (0xFE, flSat) else (s, 0)

/-- What R64 settles for one unit before its elements are encoded: a scale that stands alone, with every code and side
entry zero, or a scale with the places of the elements that escape; and the flags raised. -/
inductive Scaled where
  | alone (scale flags : Nat)
  | by_ (scale : Nat) (esc : List Nat) (flags : Nat)
  deriving DecidableEq, Repr

/-- The scale and the escape set of the inputs `xs` of a group, or of a whole square (R64, R65, R87). `expl` is the
explicit scale, if one is given. -/
def chooseScale (f : Nat) (expl : Option Nat) (xs : List Nat) : Scaled :=
  if xs.all F32.isZero then .alone 0 0
  else if fmtType f = 1 ∧ xs.any F32.isNan then .alone 0xFF flPoison
  else if expl = some 0xFF then .alone 0xFF flPoison
  else
    let sc := match expl with
      | some e => if e ≠ 0 then (e, 0) else derivedScale f xs
      | none => derivedScale f xs
    let bound := (oxsValue sc.1).mul ⟨fmtEmax f, 0⟩
    let excess := sortDesc ((indexed 0 xs).filterMap fun p =>
      if F32.isNan p.2 then none
      else if F32.isInf p.2 ∨ bound.lt (F32.value (F32.mag p.2)) then some (F32.mag p.2, p.1) else none)
    .by_ sc.1 ((excess.take (fmtE f)).map (·.2)) (sc.2 ||| (if fmtE f < excess.length then flSideOvf else 0))

/-- The elements of one row's group encoded under a scale, the members of `esc` escaping (R64). `ix` is the logical index
of each. -/
def encodeGroup (f : Nat) (md : RMode) (scale : Nat) (esc : List Nat) (flags : Nat) (ix : Nat → Nat) (xs : List Nat) :
    Group :=
  let conv := (indexed 0 xs).map fun p =>
    if esc.contains p.1 then
      let v := toOx16 md (ix p.1) p.2
      ((if fmtType f = 1 then 8 else 0x80), v.2, some (p.1 + 128 + v.1 * 65536))
    else if F32.isNan p.2 then (fmtNanCode f, flNan, none)
    else
      let c := toShort f md (ix p.1) scale p.2
      (c.1, c.2, none)
  let used := conv.filterMap (·.2.2)
  ⟨scale, conv.map (·.1), used ++ List.replicate (fmtE f - used.length) 0,
    conv.foldl (fun a c => a ||| c.2.1) flags, (conv.filter fun c => c.2.1 % 2 = 1).length⟩

/-- A group whose scale stands alone. -/
def bareGroup (f scale flags : Nat) (xs : List Nat) : Group :=
  ⟨scale, xs.map fun _ => 0, List.replicate (fmtE f) 0, flags, 0⟩

/-- A group converted: R64, with R65. `xs` are its binary32 inputs, `ix` the logical index of each, and
`expl` the explicit scale, if one is given. -/
def convertGroup (f : Nat) (md : RMode) (expl : Option Nat) (ix : Nat → Nat) (xs : List Nat) : Group :=
  match chooseScale f expl xs with
  | .alone sc fl => bareGroup f sc fl xs
  | .by_ sc esc fl => encodeGroup f md sc esc fl ix xs

/-- A square converted: one scale and one escape set for all its rows, the scale repeated for each row's group (R87).
`rows` are the rows that the tensor has of the square, each of G inputs; rows of zeros below them would change nothing.
`ix r i` is the logical index of element i of row r. -/
def convertSquare (f : Nat) (md : RMode) (expl : Option Nat) (ix : Nat → Nat → Nat) (rows : List (List Nat)) :
    List Group :=
  match chooseScale f expl (rows.flatMap id) with
  | .alone sc fl => rows.map (bareGroup f sc fl)
  | .by_ sc esc fl =>
    (indexed 0 rows).map fun r =>
      encodeGroup f md sc ((esc.filter fun p => p / fmtG f = r.1).map (· % fmtG f)) fl (ix r.1) r.2

/-- Whether a group's escape codes and side list break R51. -/
def sideBad (f : Nat) (codes side : List Nat) : Bool :=
  let escs := ((indexed 0 codes).filter fun p => isEsc f p.2).map (·.1)
  let usedPrefix := side.takeWhile fun w => bit w 7
  let rest := side.drop usedPrefix.length
  usedPrefix.map (fun w => w % 128) != escs || rest.any (fun w => decide (w ≠ 0)) ||
    usedPrefix.any (fun w => decide (bits w 8 8 ≠ 0) || decide (fmtG f ≤ w % 128))

/-- The elements of a stored group as the arrays and the widenings see them: whether the group is poisoned
(R49, R51), and each element with the group's scale. -/
def groupEls (f scale : Nat) (codes side : List Nat) (mark : Bool) : List El :=
  let bad := mark || scale = 0xFF || (scale ≠ 0 && sideBad f codes side)
  let used := side.filter fun w => bit w 7
  (indexed 0 codes).map fun p =>
    let x : Opd :=
      if scale = 0 then .val Dy.zero
      else if isEsc f p.2 then
        match used.find? (fun w => w % 128 = p.1) with
        | some w => .esc (w / 65536)
        | none => .val Dy.zero
      else codeOpd f p.2
    { scale := if scale = 0 then 0xA0 else scale, poison := bad, x := x }

/-- A plain element as an element with scale 1.0 (R76). -/
def plainEl (f c : Nat) (mark : Bool) : El := { scale := 0xA0, poison := mark, x := codeOpd f c }

/-- An element widened to binary32: NaN in a poisoned group (R49, R62). -/
def El.widen (x : El) : Nat :=
  if x.poison then F32.nan
  else match x.x with
    | .val d => f32of (d.mul (oxsValue x.scale))
    | .esc c => ox16Wide c
    | .nan => F32.nan

/-- The element code `k` of packed element bytes. -/
def elemAt (f : Nat) (bs : Bytes) (k : Nat) : Nat :=
  match fmtBits f with
  | 4 => (fieldAt bs (k / 2) 1) / (if k % 2 = 0 then 1 else 16) % 16
  | 8 => fieldAt bs k 1
  | 16 => fieldAt bs (2 * k) 2
  | 32 => fieldAt bs (4 * k) 4
  | _ => fieldAt bs (8 * k) 8

/-- Element codes packed into bytes. -/
def packElems (f : Nat) (cs : List Nat) : Bytes :=
  match fmtBits f with
  | 4 => (chunks cs.length 2 cs).flatMap fun p => leBytes 1 (p.headD 0 + 16 * (p.drop 1).headD 0)
  | 8 => cs.flatMap (leBytes 1)
  | 16 => cs.flatMap (leBytes 2)
  | 32 => cs.flatMap (leBytes 4)
  | _ => cs.flatMap (leBytes 8)

/-- The histogram bin of a binary32 value (R69). -/
def histBin (x : Nat) : Nat :=
  let b := F32.exp x
  if b = 0 then 0 else if b = 255 then 63 else if b < 7 then 1 else 1 + (b - 7) / 4

end Sys2Proof.Machine
end

