-- ==== Sys2Proof/Machine/Blocks.lean ====
section
/-! DEFINITION. Block Packing: the block header (Table 10.2), payloads (R285, R291, R292), code tables (Table 9.9)
and the expansion of a block with the faults it can end in (R98, R285, R286). -/

namespace Sys2Proof.Machine

/-! Headers. -/

/-- A block header (Table 10.2). -/
structure BlkHdr where
  mode : Nat
  poison : Bool
  bumped : Bool
  kind : Nat
  fmt : Nat
  slot : Nat
  gen : Nat
  elements : Nat
  packed : Nat
  scale : Nat
  bumps : Nat
  tag : Nat
  first : Nat
  aux : Nat
  coord : Nat
  hop : Nat
  last : Bool
  step : Nat
  crc : Nat
  deriving DecidableEq, Repr

/-- The header that 32 bytes spell. -/
def parseHdr (b : Bytes) : BlkHdr :=
  let b0 := fieldAt b 0 1
  { mode := bits b0 0 2, poison := bit b0 2, bumped := bit b0 3, kind := bits b0 4 2, fmt := fieldAt b 1 1,
    slot := bits (fieldAt b 2 1) 0 6, gen := fieldAt b 3 1, elements := bits (fieldAt b 4 2) 0 14,
    packed := bits (fieldAt b 6 2) 0 13, scale := fieldAt b 8 1, bumps := fieldAt b 9 1, tag := fieldAt b 10 2,
    first := fieldAt b 12 4, aux := fieldAt b 16 4, coord := fieldAt b 20 2, hop := bits (fieldAt b 22 1) 0 4,
    last := bit (fieldAt b 22 1) 4, step := fieldAt b 24 4, crc := fieldAt b 28 4 }

/-- Bytes 0–27 of a header. -/
def BlkHdr.front (h : BlkHdr) : Bytes :=
  leBytes 1 (h.mode + b2n h.poison * 4 + b2n h.bumped * 8 + h.kind * 16) ++ leBytes 1 h.fmt ++ leBytes 1 h.slot ++
    leBytes 1 h.gen ++ leBytes 2 h.elements ++ leBytes 2 h.packed ++ leBytes 1 h.scale ++ leBytes 1 h.bumps ++
    leBytes 2 h.tag ++ leBytes 4 h.first ++ leBytes 4 h.aux ++ leBytes 2 h.coord ++
    leBytes 1 (h.hop + b2n h.last * 16) ++ leBytes 1 0 ++ leBytes 4 h.step

/-- A block as its bytes: header with its CRC, payload. -/
def blockBytes (h : BlkHdr) (payload : Bytes) : Bytes :=
  let f := { h with packed := payload.length }.front
  f ++ leBytes 4 (crc32c (f ++ payload)) ++ payload

/-- The bytes a block takes in memory (R285). -/
def blockSize (packed : Nat) : Nat := (32 + packed + 31) / 32 * 32

/-- The size of the expanded payload of `n` elements (R285). -/
def expandedSize (f n : Nat) : Nat :=
  if fmtG f = 0 then elemBytes f n
  else n / fmtG f * (fmtG f * fmtBits f / 8 + 1 + 4 * fmtE f)

/-- Whether a header passes R39 and Table 10.2: reserved bits zero, lengths in range, a format that its mode can
carry (R291, R292, Table 9.9). -/
def hdrFits (b : Bytes) : Bool :=
  let h := parseHdr b
  let f := h.fmt
  bits (fieldAt b 0 1) 6 2 = 0 && h.kind ≠ 3 && fmtLegal f && decide (1 ≤ h.elements) &&
    decide (h.elements ≤ 8192) && bits (fieldAt b 4 2) 14 2 = 0 && decide (h.packed ≤ 4096) &&
    bits (fieldAt b 6 2) 13 3 = 0 && bits (fieldAt b 2 1) 6 2 = 0 &&
    (fmtG f = 0 || h.elements % fmtG f = 0) &&
    (h.kind = 0 || (bits (fieldAt b 22 1) 5 3 = 0 && fieldAt b 23 1 = 0 && h.bumped = decide (h.bumps ≠ 0))) &&
    (match h.mode with
      | 1 => fmtType f = 1 || fmtType f = 2 || fmtType f = 3
      | 2 => f = 0x40
      | 3 => fmtType f = 2 && fmtG f ≠ 0 && fmtE f = 0
      | _ => true)

/-- Whether a block's CRC-32C agrees (R285). -/
def crcFits (hdr payload : Bytes) : Bool := crc32c (hdr.take 28 ++ payload) = fieldAt hdr 28 4

/-! Code tables. -/

/-- The canonical prefix code of an image: (length, code, symbol), by length and then by symbol (Table 9.9). -/
def codeTable (image : Bytes) : List (Nat × Nat × Nat) :=
  let syms := (List.range 16).flatMap fun l =>
    (List.range 256).filterMap fun k => if fieldAt image (8 + k) 1 = l + 1 then some (l + 1, k) else none
  (syms.foldl (fun (a : List (Nat × Nat × Nat) × Nat × Nat) p =>
    let code := if a.1 = [] then 0 else (a.2.2 + 1) * 2 ^ (p.1 - a.2.1)
    ((p.1, code, p.2) :: a.1, p.1, code)) ([], 0, 0)).1.reverse

/-- The number whose bits, highest first, are the payload's, from bit 7 of byte 0. -/
def msbNumber (bs : Bytes) : Nat := bs.foldl (fun a b => a * 256 + b.toNat) 0

/-- Decodes `n` symbols from bit `pos`: the symbols, the bit after them, and whether all were found. -/
def prefixDecode (table : List (Nat × Nat × Nat)) (num total : Nat) : Nat → Nat → List Nat × Nat × Bool
  | 0, pos => ([], pos, true)
  | n + 1, pos =>
    match table.find? fun e => decide (pos + e.1 ≤ total) && (num >>> (total - pos - e.1)) % 2 ^ e.1 = e.2.1 with
    | none => ([], pos, false)
    | some e =>
      let r := prefixDecode table num total n (pos + e.1)
      (e.2.2 :: r.1, r.2.1, r.2.2)

/-! Expansion. -/

/-- A block expanded: its element codes, group scales and side lists, and the status it ends with, if any. -/
structure Expanded where
  codes : List Nat
  scales : List Nat
  sides : List (List Nat)
  /-- The places that a SIGN block lists as NaN (R292). -/
  nans : List Nat
  status : Option Nat
  deriving DecidableEq, Repr

/-- `n` numbers padded with zeros. -/
def padNats (n : Nat) (l : List Nat) : List Nat := l.take n ++ List.replicate (n - l.length) 0

/-- The elements, scales and side lists of an expanded payload (R285). -/
def splitPayload (f n : Nat) (bs : Bytes) (status : Option Nat) : Expanded :=
  let g := if fmtG f = 0 then 0 else n / fmtG f
  let cs := (List.range n).map (elemAt f bs)
  let so := elemBytes f n
  { codes := cs, scales := (List.range g).map fun i => fieldAt bs (so + i) 1,
    sides := (List.range g).map fun i => (List.range (fmtE f)).map fun e =>
      fieldAt bs (so + g + 4 * (i * fmtE f + e)) 4,
    nans := [], status := status }

/-- The status of a payload that has `have_` bytes where `need` belong. -/
def lengthStatus (have_ need : Nat) : Option Nat :=
  if need < have_ then some 0x11 else if have_ < need then some 0x12 else none

/-- The bytes of the smallest whole number of elements or groups of a format. -/
def unitBytes (f : Nat) : Nat := if fmtG f = 0 then max 1 (fmtBits f / 8) else expandedSize f (fmtG f)

/-- A RAW block; a payload that ends inside an element or a group counts as smaller (R285). -/
def expandRaw (f n : Nat) (payload : Bytes) : Expanded :=
  splitPayload f n (padTo (expandedSize f n) payload)
    (if payload.length % unitBytes f ≠ 0 then some 0x12 else lengthStatus payload.length (expandedSize f n))

/-- A PREFIX block: the element codes as codewords in element order, then, from the next byte, the scales and side
lists of the expanded payload (the order is R285's; that scales and side lists stay uncoded is DEDUCED, log 31). -/
def expandPrefix (f n : Nat) (image payload : Bytes) : Expanded :=
  let r := prefixDecode (codeTable image) (msbNumber payload) (8 * payload.length) n 0
  let at_ := (r.2.1 + 7) / 8
  let rest := payload.drop at_
  let need := expandedSize f n - elemBytes f n
  let e := splitPayload f n (packElems f (padNats n r.1) ++ padTo need rest) none
  { e with status := if !r.2.2 then some 0x12 else lengthStatus rest.length need }

/-- A TOPK block: entries of an index and an OX16 value; the gaps are zero (R291). -/
def expandTopk (n : Nat) (payload : Bytes) : Expanded :=
  let es := (List.range (payload.length / 4)).map fun i => (fieldAt payload (4 * i) 2, fieldAt payload (4 * i + 2) 2)
  { codes := (List.range n).map fun i => match es.find? fun e => e.1 = i with | some e => e.2 | none => 0,
    scales := [], sides := [], nans := [],
    status := if es.any fun e => decide (n ≤ e.1) then some 0x11
      else if payload.length % 4 ≠ 0 then some 0x12 else none }

/-- A SIGN block: a sign bit per element, a scale per group, and the listed NaN elements (R292). -/
def expandSign (f n : Nat) (payload : Bytes) : Expanded :=
  let sb := (n + 7) / 8
  let g := n / fmtG f
  let nan := fieldAt payload (sb + g) 1
  let listed := (List.range nan).map fun i => fieldAt payload (sb + g + 1 + 2 * i) 2
  { codes := (List.range n).map fun i =>
      if listed.contains i then 0x7F
      else if bit (fieldAt payload (i / 8) 1) (i % 8) then 0xC0 else 0x40,
    scales := (List.range g).map fun i => fieldAt payload (sb + i) 1, sides := List.replicate g [], nans := listed,
    status := lengthStatus payload.length (sb + g + 1 + 2 * nan) }

/-- The expansion of a block whose header fits; `image` is the code table of a PREFIX block. -/
def expandBlock (h : BlkHdr) (image payload : Bytes) : Expanded :=
  match h.mode with
  | 0 => expandRaw h.fmt h.elements payload
  | 1 => expandPrefix h.fmt h.elements image payload
  | 2 => expandTopk h.elements payload
  | _ => expandSign h.fmt h.elements payload

/-! Elements at an array port. -/

/-- The elements of a group as an array port sees them. A group of scale 0x00 keeps its scale and its NaN codes,
and its side list is not read (R48, R82). -/
def arrayGroup (f scale : Nat) (codes side : List Nat) (mark : Bool) : List El :=
  if scale = 0 then
    codes.map fun c =>
      { scale := 0, poison := mark,
        x := if isEsc f c then .val Dy.zero else match codeOpd f c with | .nan => .nan | _ => .val Dy.zero }
  else groupEls f scale codes side mark

/-- The elements of an expanded block; `mark` poisons every group (R98, Table 6.4). -/
def Expanded.els (e : Expanded) (f : Nat) (mark : Bool) : List El :=
  if fmtG f = 0 then e.codes.map fun c => plainEl f c mark
  else
    (indexed 0 (chunks e.codes.length (fmtG f) e.codes)).flatMap fun p =>
      arrayGroup f (if mark then 0xFF else (e.scales[p.1]?).getD 0) p.2 ((e.sides[p.1]?).getD []) mark

end Sys2Proof.Machine
end

