-- ==== Sys2Proof/Machine/Slots.lean ====
section
/-! DEFINITION. The words of a bundle: header, slots and their fields (Tables 5.1 to 5.6, 5.8, 5.10, 5.15), and
which of them complete with a fault at decode (R134, R138, R145, R151, R154, R155, R162, R165, R402). -/

namespace Sys2Proof.Machine

/-- PRESENT of a header. -/
def hdrPresent (h : Nat) : Nat := bits h 24 8
/-- LENGTH of a header. -/
def hdrLength (h : Nat) : Nat := bits h 16 8
/-- TAGGED. -/
def hdrTagged (h : Nat) : Bool := bit h 8
/-- SYNC_POINT. -/
def hdrSync (h : Nat) : Bool := bit h 9
/-- LAST. -/
def hdrLast (h : Nat) : Bool := bit h 10
/-- STEP. -/
def hdrStep (h : Nat) : Bool := bit h 11
/-- NOTIFY. -/
def hdrNotify (h : Nat) : Bool := bit h 12

/-- The slots that PRESENT marks, ascending. -/
def presentSlots (p : Nat) : List Nat := (List.range 8).filter fun j => bit p j

/-- The length that R134 asks for. -/
def wantedLength (h : Nat) : Nat := 1 + b2n (hdrTagged h) + 2 * (presentSlots (hdrPresent h)).length

/-- Whether a header passes R134, in a stream of `words` words, at word `w`. -/
def headerOk (h w words : Nat) : Bool :=
  hdrLength h = wantedLength h && bits h 0 8 = 0 && bits h 13 3 = 0 && decide (w + hdrLength h ≤ words)

/-- OP of a slot. -/
def slotOp (w : Nat) : Nat := bits w 58 6

/-- Whether only the named fields of bits [52:0] are set. -/
def onlyFields (w : Nat) (fs : List (Nat × Nat)) : Bool :=
  (List.range 53).all fun i => !bit w i || fs.any fun f => decide (f.1 ≤ i) && decide (i < f.1 + f.2)

/-- The legal formats that a conversion or a widening of this chapter names: neither the untyped byte nor the
scale format is among them (R62, R108, R150; DEDUCED, log 12). -/
def fmtConv (f : Nat) : Bool := fmtLegal f && fmtType f ≠ 0 && fmtType f ≠ 5

/-- CTRL conditions (R141). -/
def condOk (c : Nat) : Bool := decide (c ≤ 5)

/-- The decode faults of a CTRL slot in a context of kind `kind` (Table 5.4, R145, R162). -/
def ctrlFaults (w kind : Nat) : List Nat :=
  let op := slotOp w
  let ok :=
    if op = 0 then onlyFields w []
    else if 1 ≤ op ∧ op ≤ 0x0B then onlyFields w [(48, 5), (43, 5), (38, 5)]
    else if op = 0x10 ∨ op = 0x11 then onlyFields w [(48, 5), (0, 32)]
    else if op = 0x12 then onlyFields w [(48, 5), (43, 5), (0, 32)]
    else if op = 0x14 ∨ op = 0x15 then onlyFields w [(50, 3), (47, 3), (42, 5), (37, 5)] && condOk (bits w 47 3)
    else if 0x18 ≤ op ∧ op ≤ 0x1B then onlyFields w [(50, 3), (47, 3), (44, 3)]
    else if op = 0x20 then onlyFields w [(0, 24)]
    else if op = 0x21 then onlyFields w [(48, 5), (45, 3), (0, 24)] && condOk (bits w 45 3)
    else if op = 0x24 then onlyFields w [(48, 5), (0, 24)]
    else if op = 0x25 then onlyFields w [] && bit w 57
    else if op = 0x26 then onlyFields w [(48, 5), (46, 2)]
    else if op = 0x28 then onlyFields w [(47, 6), (42, 5), (37, 5)]
    else if op = 0x29 then onlyFields w [(43, 5)]
    else if op = 0x30 then onlyFields w [(48, 5), (0, 16)]
    else false
  (if ok then [] else [0x02]) ++ (if op = 0x30 ∧ kind = 1 then [0x04] else [])

/-- ENGINE_ABSENT for a far space of a port that is not bonded (R165). -/
def spaceFaults (space bonded : Nat) : List Nat :=
  if 4 ≤ space ∧ !bit bonded (space - 4) then [0x01] else []

/-- The decode faults of a DIN slot. -/
def dinFaults (w bonded : Nat) : List Nat :=
  let op := slotOp w
  if op = 0 then (if onlyFields w [] then [] else [0x02])
  else if op = 1 then
    (if onlyFields w [(50, 3), (45, 5), (44, 1)] then [] else [0x02]) ++ spaceFaults (bits w 50 3) bonded
  else [0x02]

/-- The decode faults of a DOUT slot (R39: an illegal FMT of a DRAIN). A DRAIN writes a tensor, so a copy queue is no
destination for one (R185; DEDUCED, log 37). -/
def doutFaults (w bonded : Nat) : List Nat :=
  let op := slotOp w
  if op = 2 then
    (if onlyFields w [(50, 3), (45, 5), (26, 19), (18, 8), (17, 1), (15, 2), (10, 5), (9, 1), (8, 1)] &&
        fmtConv (bits w 18 8) && bits w 50 3 ≠ 3 then [] else [0x02]) ++ spaceFaults (bits w 50 3) bonded
  else dinFaults w bonded

/-- One dimension of a generator block, from its 64-bit word (R153). -/
def genDim (v : Nat) : GenDim :=
  { i := bits v 0 16 + 1, k := bits v 16 6 + 1, s := bits v 22 6 + 1, l := bits v 28 6 + 1,
    plo := bits v 34 8, phi := bits v 42 8 }

/-- The generator block that 32 bytes spell (R153). -/
def genBlock (bs : Bytes) (wgtPort : Bool) : GenBlock :=
  let v := fieldAt bs 24 8
  { d := genDim (fieldAt bs 0 8), h := genDim (fieldAt bs 8 8), w := genDim (fieldAt bs 16 8),
    c := bits v 0 16 + 1, c32 := bit v 16, transpose := bit v 17, oneTap := bit v 18, tap := bits v 19 18,
    dims := bits v 37 2, wgtPort := wgtPort }

/-- Whether a reserved bit of a generator block is set. -/
def genReserved (bs : Bytes) : Bool :=
  bits (fieldAt bs 0 8) 50 14 ≠ 0 || bits (fieldAt bs 8 8) 50 14 ≠ 0 || bits (fieldAt bs 16 8) 50 14 ≠ 0 ||
    bits (fieldAt bs 24 8) 39 25 ≠ 0

/-- The output extent of a dimension (R128). -/
def GenDim.out (d : GenDim) : Int :=
  ((d.i : Int) + d.plo + d.phi - d.l * (d.k - 1 : Nat) - 1) / d.s + 1

/-- The taps of a kernel. -/
def GenBlock.taps (g : GenBlock) : Nat := g.d.k * g.h.k * g.w.k

/-- The parameters' ranges (R126, Table 4.6): a named tap exists, TRANSPOSE and the weight-load port name one,
unused extents and kernels are 1, and every output extent is at least 1. The forward engine's generator (`fwd`) feeds
its port in FORWARD mode only. -/
def GenBlock.ok (g : GenBlock) (fwd : Bool) : Bool :=
  let one (d : GenDim) : Bool := d.i = 1 && d.k = 1
  !(fwd && g.transpose) && g.dims ≠ 0 && (decide (3 ≤ g.dims) || one g.d) && (decide (2 ≤ g.dims) || one g.h) &&
    (!(g.transpose || g.wgtPort) || g.oneTap) && (!g.oneTap || decide (g.tap < g.taps)) &&
    decide (1 ≤ g.d.out) && decide (1 ≤ g.h.out) && decide (1 ≤ g.w.out)

/-- The decode faults of a FWD (`fwd`) or BWD slot (R151). -/
def prodFaults (w : Nat) (fwd : Bool) : List Nat :=
  let op := slotOp w
  let ok :=
    if op = 0 then onlyFields w []
    else op = 1 && onlyFields w [(49, 4), (47, 2), (45, 2), (43, 2), (37, 6), (36, 1), (31, 5), (26, 5)] &&
      bits w 49 4 ≠ 0 && bits w 47 2 ≠ 3 &&
      !(fwd && (bit w 46 || bit w 45 || bit w 43 || bit w 51 || bit w 52))
  if ok then [] else [0x02]

/-- The element formats that GATHER and SCATTER take (R108). -/
def gatherFmt (f : Nat) : Bool :=
  fmtG f = 0 && (fmtType f = 2 || fmtType f = 3 || fmtType f = 4 || fmtType f = 6)

/-- The lane types that an operation takes, by opcode (Table 4.1): 0 binary32, 1 binary64, 2 int32, 3 uint32. An
operation named with another type is not an operation of the table (DEDUCED, log 12). -/
def vecTypeOk (op ty : Nat) : Bool :=
  if 0x01 ≤ op ∧ op ≤ 0x0B then decide (ty ≤ 1)
  else if 0x0C ≤ op ∧ op ≤ 0x0F then ty = 0
  else if 0x10 ≤ op ∧ op ≤ 0x1A then decide (2 ≤ ty)
  else if op = 0x38 ∨ op = 0x39 ∨ op = 0x3A then decide (ty ≤ 1)
  else if op = 0x3B then ty = 0
  else if op = 0x3C then ty = 2
  else if op = 0x28 ∨ op = 0x29 then ty ≠ 1
  else true

/-- The lane types that a memory form takes with a format: binary32 lanes from or to the short formats and 32-bit
elements, binary64 lanes besides from or to binary64, integer lanes from or to 32-bit elements; GATHER and
SCATTER have no binary64 form (Table 4.1, R108; DEDUCED, log 12). -/
def memTypeOk (op ty f : Nat) : Bool :=
  if 2 ≤ ty then fmtType f = 6
  else if ty = 0 then fmtType f ≠ 7
  else op = 0x30 || op = 0x31

/-- The fields that a VEC operation uses, besides MSK and MK (Table 5.15); none for an opcode not listed. -/
def vecFields (w : Nat) : Option (List (Nat × Nat)) :=
  let op := slotOp w
  let ty := (47, 2); let vd := (41, 6); let va := (35, 6); let vb := (29, 6); let vc := (23, 6)
  if op ∈ [0x01, 0x02, 0x03, 0x05, 0x06, 0x09, 0x0A] ∨ (0x10 ≤ op ∧ op ≤ 0x1A) then some [ty, vd, va, vb]
  else if op = 0x04 then some [ty, vd, va, vb, vc]
  else if op ∈ [0x07, 0x08, 0x0B, 0x0C, 0x0D, 0x0E, 0x0F] then some [ty, vd, va]
  else if op = 0x1B then some [ty, vd, va, (21, 2)]
  else if op = 0x1C then some [ty, (41, 3), va, vb, (20, 3)]
  else if 0x20 ≤ op ∧ op ≤ 0x23 then some [(41, 3), (35, 3), (29, 3)]
  else if op = 0x24 then some [(41, 3), (35, 3)]
  else if op = 0x25 then some [(41, 3)]
  else if op = 0x28 ∨ op = 0x29 then some [ty, vd, (18, 5)]
  else if op = 0x2A ∨ op = 0x2B then some [vd, va]
  else if op = 0x2C ∨ op = 0x2D then some [vd, (4, 19), (0, 4), (23, 1)]
  else if op = 0x30 then some [ty, vd, (30, 5), (7, 8)]
  else if op = 0x31 then some [ty, vd, (30, 5), (25, 5), (20, 5), (15, 5), (7, 8), (6, 1)]
  else if op = 0x32 ∨ op = 0x33 then some [vd, (30, 5)]
  else if op = 0x34 ∨ op = 0x35 then some [ty, vd, va, (30, 5), (7, 8)]
  else if 0x38 ≤ op ∧ op ≤ 0x3C then some [ty, va, (41, 5)]
  else if op = 0x3D then some [(41, 5)]
  else if op = 0x2E then some (if bit w 22 then [va, (22, 1)] else [va, vb, (22, 1)])
  else if op = 0x2F ∨ op = 0x36 then some [(20, 2), (19, 1)]
  else if op = 0x37 then some [vd, vb]
  else none

/-- The decode faults of a VEC slot in context `x` (R39, R108, R154, R155, R208, R402). -/
def vecFaults (w x : Nat) : List Nat :=
  let op := slotOp w
  if op = 0 then (if onlyFields w [] then [] else [0x02])
  else match vecFields w with
    | none => [0x02]
    | some fs =>
      let memFmt := bits w 7 8
      let sort := op ∈ [0x2E, 0x2F, 0x36, 0x37]
      if onlyFields w ([(52, 1), (49, 3)] ++ fs) && vecTypeOk op (bits w 47 2) &&
          !(op = 0x1C && bits w 20 3 = 7) &&
          !((op = 0x2C || op = 0x2D) && decide (524160 < bits w 4 19)) &&
          !((op = 0x30 || op = 0x31) && !fmtConv memFmt) &&
          !((op = 0x34 || op = 0x35) && !(fmtLegal memFmt && gatherFmt memFmt)) &&
          !((op = 0x30 || op = 0x31 || op = 0x34 || op = 0x35) && !memTypeOk op (bits w 47 2) memFmt) &&
          !(sort && x = 1) then [] else [0x02]

/-- The decode faults of a ROW slot (R156). -/
def rowFaults (w : Nat) : List Nat :=
  let op := slotOp w
  let ok :=
    if op = 0 then onlyFields w []
    else decide (op ≤ 0x0A) && onlyFields w [(39, 14), (38, 1), (36, 2), (35, 1), (34, 1), (29, 5)]
  if ok then [] else [0x02]

/-- The decode faults of a SYNC slot (Table 5.10). -/
def syncFaults (w : Nat) : List Nat :=
  let op := slotOp w
  let ok :=
    if op = 0 ∨ op = 1 then onlyFields w []
    else if op = 2 then onlyFields w [(47, 6), (14, 16)]
    else if op = 3 then onlyFields w [(47, 6), (42, 5), (39, 3), (14, 16)]
    else if op = 4 then onlyFields w [(30, 9)]
    else if op = 5 then onlyFields w [(47, 6), (42, 5)]
    else op = 6 && onlyFields w [(42, 5)]
  if ok then [] else [0x02]

/-- The decode faults of slot `j`: `kind` and `x` the stream's context kind and stream context, `bonded` the
map CAP.FAR.PORTS. -/
def slotFaults (j w kind x bonded : Nat) : List Nat :=
  match j with
  | 0 => ctrlFaults w kind
  | 1 => dinFaults w bonded
  | 2 => doutFaults w bonded
  | 3 => prodFaults w true
  | 4 => prodFaults w false
  | 5 => vecFaults w x
  | 6 => rowFaults w
  | _ => syncFaults w

/-- Whether a slot's guard lets it run, with the predicates as they stood before the bundle (R138). -/
def guardPasses (w : Nat) (preds : BitVec 8) : Bool :=
  !bit w 57 || (preds.getLsbD (bits w 53 3) != bit w 56)

end Sys2Proof.Machine
end

