-- ==== Sys2Proof/Machine/Descs.lean ====
section
/-! DEFINITION. Transfer descriptors (Tables 6.2, 6.3), the byte ranges that the transfers in flight on a core will read
and write, and the reads that wait for them (R149, R183). -/

namespace Sys2Proof.Machine

/-- The descriptor of 32 bytes at a physical stage address. -/
def State.readDesc (s : State) (n a : Nat) : Desc :=
  let w (i : Nat) : Word64 := BitVec.ofNat 64 (s.readNum (.stage n) (a + 8 * i) 8)
  { w0 := w 0, w1 := w 1, w2 := w 2, w3 := w 3 }

/-- EXT [47:0] of a COPY descriptor. -/
def Desc.ext (d : Desc) : Nat := bits d.w0.toNat 0 48
/-- LSP: the local side is the die buffer. -/
def Desc.lsp (d : Desc) : Bool := bit d.w0.toNat 48
/-- LOCAL. -/
def Desc.local_ (d : Desc) : Nat := bits d.w1.toNat 0 26
/-- ROW_BYTES. -/
def Desc.rowBytes (d : Desc) : Nat := bits d.w1.toNat 32 20 + 1
/-- EXT_PITCH. -/
def Desc.extPitch (d : Desc) : Nat := bits d.w2.toNat 0 32
/-- LOCAL_PITCH. -/
def Desc.localPitch (d : Desc) : Nat := bits d.w2.toNat 32 32
/-- ROWS. -/
def Desc.rows (d : Desc) : Nat := bits d.w3.toNat 0 20 + 1
/-- CHAIN. -/
def Desc.chain (d : Desc) : Nat := bits d.w3.toNat 20 8

/-- Reserved bits of a COPY descriptor that are set. -/
def Desc.copyReserved (d : Desc) : Bool :=
  bits d.w0.toNat 49 15 ≠ 0 || bits d.w1.toNat 26 6 ≠ 0 || bits d.w1.toNat 52 12 ≠ 0 || bits d.w3.toNat 28 36 ≠ 0

/-- BASE of a DRAIN descriptor. -/
def Desc.base (d : Desc) : Nat := bits d.w0.toNat 0 48
/-- Tile rows. -/
def Desc.tileRows (d : Desc) : Nat := bits d.w0.toNat 48 16 + 1
/-- Scale-plane base in bytes. -/
def Desc.scaleBase (d : Desc) : Nat := d.base + 64 * bits d.w1.toNat 0 24
/-- Side-list-plane base in bytes. -/
def Desc.sideBase (d : Desc) : Nat := d.base + 64 * bits d.w1.toNat 24 24
/-- Tile columns. -/
def Desc.tileCols (d : Desc) : Nat := bits d.w1.toNat 48 16 + 1
/-- RSTAT, in 8-byte units. -/
def Desc.rstat (d : Desc) : Nat := bits d.w2.toNat 0 40
/-- Logical row length. -/
def Desc.len (d : Desc) : Nat := bits d.w2.toNat 40 24 + 1
/-- First logical row. -/
def Desc.row0 (d : Desc) : Nat := bits d.w3.toNat 0 32
/-- First logical column. -/
def Desc.col0 (d : Desc) : Nat := bits d.w3.toNat 32 24

/-- A number rounded up to a multiple. -/
def roundUp (n k : Nat) : Nat := (n + k - 1) / k * k

/-- The element-plane row pitch of a stored tensor of row length `len`: R52, R185. -/
def elemPitch (f len : Nat) : Nat :=
  if fmtG f = 0 then roundUp (elemBytes f len) 64 else roundUp (elemBytes f (roundUp len (fmtG f))) 64
/-- The scale-plane row pitch. -/
def scalePitch (f len : Nat) : Nat := roundUp ((len + fmtG f - 1) / fmtG f) 64
/-- The side-list-plane row pitch. -/
def sidePitch (f len : Nat) : Nat := roundUp (4 * ((len + fmtG f - 1) / fmtG f) * fmtE f) 64

/-- Rows of a strided block as (start, length) ranges. -/
def strided (start pitch len rows : Nat) : List (Nat × Nat) :=
  (List.range rows).map fun i => (start + i * pitch, len)

/-- Whether two ranges overlap. -/
def rangesHit (a b : Nat × Nat) : Bool := decide (a.1 < b.1 + b.2) && decide (b.1 < a.1 + a.2)

/-- Whether any range of one list overlaps one of another. -/
def listsHit (l m : List (Nat × Nat)) : Bool := l.any fun a => m.any fun b => rangesHit a b

/-- The descriptors of a transfer: the first, and those chained behind it, as they stand in the stage buffer. -/
def State.xferDescs (s : State) (n : Nat) (t : Xfer) : List Desc :=
  t.desc :: (List.range t.chain).map fun i => s.readDesc n (t.at_ + 32 * (i + 1))

/-- The bytes that a packed tile takes: RAW blocks of 4,096 payload bytes or of whole groups, and the last (R185). -/
def packedLength (f rows cols : Nat) : Nat :=
  if fmtG f = 0 then
    let n := elemBytes f (rows * cols)
    n / 4096 * blockSize 4096 + (if n % 4096 = 0 then 0 else blockSize (n % 4096))
  else
    let size := expandedSize f (fmtG f)
    let per := 4096 / size
    let n := rows * ((cols + fmtG f - 1) / fmtG f)
    n / per * blockSize (per * size) + (if n % per = 0 then 0 else blockSize (n % per * size))

/-- The planes that a DRAIN writes, as ranges of its destination space. -/
def drainRanges (d : Desc) (f : Nat) (packed : Bool) : List (Nat × Nat) :=
  if packed then [(d.base, packedLength f d.tileRows d.tileCols)]
  else if fmtG f = 0 then
    (List.range d.tileRows).map fun r =>
      let a := d.base + (d.row0 + r) * elemPitch f d.len
      (a + d.col0 * fmtBits f / 8, (d.col0 + d.tileCols) * fmtBits f / 8 + (d.col0 + d.tileCols) * fmtBits f % 8 / 4 -
        d.col0 * fmtBits f / 8)
  else
    let g := (d.tileCols + fmtG f - 1) / fmtG f
    let g0 := d.col0 / fmtG f
    strided (d.base + d.row0 * elemPitch f d.len + elemBytes f d.col0) (elemPitch f d.len) (elemBytes f (g * fmtG f))
        d.tileRows ++
      strided (d.scaleBase + d.row0 * scalePitch f d.len + g0) (scalePitch f d.len) g d.tileRows ++
      (if fmtE f = 0 then []
       else strided (d.sideBase + d.row0 * sidePitch f d.len + 4 * fmtE f * g0) (sidePitch f d.len) (4 * fmtE f * g)
         d.tileRows)

/-- FMT of a DRAIN slot. -/
def drainFmt (w : Nat) : Nat := bits w 18 8

/-- Moves ranges of a region to its physical base. -/
def shiftRanges (base : Nat) (l : List (Nat × Nat)) : List (Nat × Nat) := l.map fun p => (base + p.1, p.2)

/-- A range without the bytes of another, as the ranges before and behind it. -/
def cutRange (c r : Nat × Nat) : List (Nat × Nat) :=
  if rangesHit c r then
    [(r.1, c.1 - r.1), (c.1 + c.2, r.1 + r.2 - (c.1 + c.2))].filter fun p => p.2 ≠ 0
  else [r]

/-- Some ranges without the bytes of others. -/
def cutRanges (cs l : List (Nat × Nat)) : List (Nat × Nat) := cs.foldl (fun l c => l.flatMap (cutRange c)) l

/-- The physical stage bytes that a transfer will write, without those that it has released already (R184). -/
def State.xferStageWrites (s : State) (n : Nat) (t : Xfer) : List (Nat × Nat) :=
  let base := t.sbase
  let side (d : Desc) : List (Nat × Nat) :=
    match t.kind with
    | .din => if d.lsp then [] else strided d.local_ d.localPitch d.rowBytes d.rows
    | .dout => if t.space = 2 then strided d.ext d.extPitch d.rowBytes d.rows else []
    | .drain => if t.space = 2 then drainRanges d (drainFmt t.slot.toNat) (bit t.slot.toNat 8) else []
  cutRanges t.landed (shiftRanges base ((s.xferDescs n t).flatMap side))

/-- The physical stage bytes that a transfer will read, its descriptors among them (R183). -/
def State.xferStageReads (s : State) (n : Nat) (t : Xfer) : List (Nat × Nat) :=
  let base := t.sbase
  let side (d : Desc) : List (Nat × Nat) :=
    match t.kind with
    | .din => if t.space = 2 then strided d.ext d.extPitch d.rowBytes d.rows else []
    | .dout => if d.lsp then [] else strided d.local_ d.localPitch d.rowBytes d.rows
    | .drain => []
  (t.at_, 32 * (t.chain + 1)) :: shiftRanges base ((s.xferDescs n t).flatMap side)

/-- The operations in the issue queues of the vector and row engines that come before `idx` (R139). -/
def Core.queuedBefore (k : Core) (idx : Nat) : List UnitOp := (k.vecq ++ k.rowq).filter fun u => decide (u.idx < idx)

/-- Whether a transfer in flight, or a queued vector or row operation, issued before `idx` will write any of the bytes: a
reader of them waits (R111, R149). -/
def State.stageReadWaits (s : State) (n idx : Nat) (l : List (Nat × Nat)) : Bool :=
  ((s.core n).xfers.any fun t => decide (t.idx < idx) && listsHit (s.xferStageWrites n t) l) ||
    ((s.core n).queuedBefore idx).any fun u => listsHit u.foot.writes l

end Sys2Proof.Machine
end

