-- ==== Sys2Proof/Machine/Bundle.lean ====
section
/-! DEFINITION. The sequencer: fetching, decoding and issuing bundles (R132 to R139), control flow (R142 to
R145), faults (R164 to R166), and the shared form of every slot operation. -/

namespace Sys2Proof.Machine

/-! Scalars, regions and records. -/

/-- A context whose stream has left it. Scalar registers and predicates keep their values (R168). -/
def SeqCtx.vacate (c : SeqCtx) : SeqCtx :=
  { SeqCtx.reset with state := .noStream, lastAct := some c.act, sregs := c.sregs, preds := c.preds }

/-- A scalar register; s0 reads zero (R140). -/
def sregGet (l : List (Nat × Word64)) (r : Nat) : Nat :=
  if r = 0 then 0 else (Sparse.get 0 l r).toNat

/-- Sets a scalar register; s0 ignores writes. -/
def sregSet (l : List (Nat × Word64)) (r v : Nat) : List (Nat × Word64) :=
  if r = 0 then l else Sparse.set 0 l r (BitVec.ofNat 64 v)

/-- Sets a scalar register of a context. -/
def State.setSreg (s : State) (n x r v : Nat) : State :=
  s.modCtx n x fun c => { c with sregs := sregSet c.sregs r v }

/-- Sets a predicate of a context. -/
def State.setPred (s : State) (n x p : Nat) (v : Bool) : State :=
  s.modCtx n x fun c => { c with preds := BitVec.ofNat 8 (putBits c.preds.toNat p 1 (b2n v)) }

/-- A scalar register as it stood before the bundle (R139). -/
def OpenBundle.sreg (b : OpenBundle) (r : Nat) : Nat := sregGet b.sregs r

/-- A stage-buffer region: physical base and size (R172). START, TEST and RECOVER streams have all 4 MiB; a
sideshow act has the top P bytes; the headline act and act 0's SERVICE streams have the rest. -/
def State.stageRegion (s : State) (n x : Nat) : Nat × Nat :=
  let p := (s.core n).sbSideshow * 2 ^ 16
  if (s.ctx n x).kind ≠ 1 then (0, stageSize)
  else if x = 1 then (stageSize - p, p)
  else (0, stageSize - p)

/-- The accumulator entries of a context: first physical entry and count (R208). -/
def State.accRegion (s : State) (n x : Nat) : Nat × Nat :=
  let k := 4096 * (s.core n).accSs
  if (s.ctx n x).kind ≠ 1 then (0, 524288)
  else if x = 1 then (524288 - k, k)
  else (0, 524288 - k)

/-- The side-memory entries of a context: first physical entry and count (R208). -/
def State.sideRegion (s : State) (n x : Nat) : Nat × Nat :=
  let k := 1024 * (s.core n).sideSs
  if (s.ctx n x).kind ≠ 1 then (0, 16384)
  else if x = 1 then (16384 - k, k)
  else (0, 16384 - k)

/-- The tag or, for a sideshow bundle, the stream offset, that a record of a bundle holds (R136). -/
def recTag (x off : Nat) (tag : Word32) : Word32 := if x = 1 then BitVec.ofNat 32 off else tag

/-- A record that the bundle at an offset with a tag causes (R135, R136). -/
def EvRec.by_ (x off : Nat) (tag : Word32) (r : EvRec) : EvRec := { r with isOffset := x = 1, tag := recTag x off tag }

/-- An event of a stream's bundle: its queue, logical core and tag (R135, R136, Table 8.8). -/
def State.ctxEvent (s : State) (n x typ status off : Nat) (tag : Word32) (payload : Bytes) : State :=
  let c := s.ctx n x
  let q := c.queue
  let lc := match q with | some q => s.fld (Reg.qmQCfg q) Fld.qmQCfgCore | none => 0xFFFF
  s.event { typ := typ, severity := openSeverity typ status, status := status, act := c.act,
            isOffset := x = 1, queue := q, core := lc, phys := n,
            mw1 := decide (4 ≤ coreDie n), stamp := s.now, tag := recTag x off tag, payload := payload }

/-- A payload that the spec does not lay out (log 8). -/
def openPayload (typ status act stamp : Nat) : Bytes :=
  leBytes 40 (Config.eventPayload typ status act stamp).toNat

/-- Core `n` has got on: its watchdog starts anew (R336). -/
def State.stirred (s : State) (n : Nat) : State := s.modCore n fun k => { k with progressAt := s.now }

/-- A list of conditions with one more, if it is new, and the tag of the bundle that met it (R135). -/
def noted (conds : List (Nat × Word32)) (status : Nat) (tag : Word32) : List (Nat × Word32) :=
  if conds.any fun c => c.1 = status then conds else conds ++ [(status, tag)]

/-- A condition, met by the bundle at an offset with a tag, that the stream's completion carries (R13, R167). -/
def State.note (s : State) (n x status off : Nat) (tag : Word32) : State :=
  s.modCtx n x fun c => { c with conds := noted c.conds status (recTag x off tag) }

/-- Raises flags of NUM.FLAGS (R54, R63). -/
def State.raise (s : State) (n flags : Nat) : State :=
  if flags = 0 then s else s.setReg (Reg.numFlags n) (s.reg (Reg.numFlags n) ||| flags)

/-! Faults. -/

/-- The record SEQ.FAULT, unless one is held already (Table 5.14). -/
def State.seqRecord (s : State) (n x slot status word off : Nat) (tag : Word32) (atDecode : Bool) : State :=
  let k := Reg.seqFault n x
  if bit (s.reg k) 0 then s
  else (s.setReg k (1 + slot * 2 + b2n atDecode * 16 + status * 256 + (recTag x off tag).toNat * 2 ^ 32)).setReg
    (Reg.seqFaultpos n x) word

/-- Holds the stream's queue in a halt state, and the context with it. A halt ends a STOP in progress (DESIGN CHOICE,
log 41); a queue that resets goes on resetting. -/
def State.haltStream (s : State) (n x qst : Nat) : State :=
  let s := s.modCtx n x fun c => { c with state := .halted }
  match (s.ctx n x).queue with
  | some q =>
    if s.qState q = 7 ∨ s.qState q = qst then s
    else
      let s := s.modQueue q fun k => { k with control := none }
      (s.setFld (Reg.qmQState q) Fld.qmQStateBusy 0).setQState q qst
  | none => s

/-- The conditions of a fault in the list `l` beside the reported one: each has an event of its own, and the
completion carries it too (R13, R164). -/
def State.furtherFaults (s : State) (n x status off : Nat) (tag : Word32) (l : List Nat) : State :=
  s.each ((l.filter fun c => c ≠ status).eraseDups) fun c s =>
    (s.ctxEvent n x 0x05 c off tag (openPayload 0x05 c (s.ctx n x).act s.now)).note n x c off tag

/-- A decode fault with the conditions `l`, of which `status` is reported: the bundle has no effect, its queue is
held in HALT_DECODE, and the events are written (R164). -/
def State.decodeFault (s : State) (n x slot status word off : Nat) (tag : Word32) (l : List Nat) : State :=
  let s := s.seqRecord n x slot status word off tag true
  let s := s.ctxEvent n x 0x05 status off tag (openPayload 0x05 status (s.ctx n x).act s.now)
  ((s.note n x status off tag).furtherFaults n x status off tag l).haltStream n x 5

/-- A fault at issue or in execution, recorded in SEQ.FAULT: the stream stops after the faulting bundle and its
queue enters HALT_EXEC (R166). -/
def State.execFault (s : State) (n x slot status word off : Nat) (tag : Word32) : State :=
  let s := s.seqRecord n x slot status word off tag false
  let s := s.ctxEvent n x 0x05 status off tag (openPayload 0x05 status (s.ctx n x).act s.now)
  (s.note n x status off tag).haltStream n x 6

/-- A fault at issue of slot `slot` of the open bundle. -/
def State.slotFault (s : State) (n x : Nat) (b : OpenBundle) (slot status : Nat) : State :=
  s.execFault n x slot status b.word b.off b.tag

/-- The faults at issue `l` of one slot: the lowest is reported, the others have events of their own (R13). -/
def State.slotFaultsAt (s : State) (n x : Nat) (b : OpenBundle) (slot : Nat) (l : List Nat) : State :=
  (s.slotFault n x b slot (statusOf l)).furtherFaults n x (statusOf l) b.off b.tag l

/-! Fetching and decoding. -/

/-- The space of a stream's words (Table 8.4). -/
def SeqCtx.space (c : SeqCtx) : Space := if c.near then .near else .host

/-- Word `i` of the stream. -/
def State.streamWord (s : State) (c : SeqCtx) (i : Nat) : Nat := s.readNum c.space (c.base + 4 * i) 4

/-- The present slots of the bundle at word `w`, with their 64-bit words, low word first (R132, R133). -/
def State.bundleSlots (s : State) (c : SeqCtx) (w : Nat) : List (Nat × Nat) :=
  let h := s.streamWord c w
  let at0 := w + 1 + b2n (hdrTagged h)
  (indexed 0 (presentSlots (hdrPresent h))).map fun p =>
    (p.2, s.readNum c.space (c.base + 4 * (at0 + 2 * p.1)) 8)

/-- The tag word of the bundle at word `w`; zero without one. -/
def State.bundleTag (s : State) (c : SeqCtx) (w : Nat) : Word32 :=
  if hdrTagged (s.streamWord c w) then BitVec.ofNat 32 (s.streamWord c (w + 1)) else 0

/-- Whether R135 asks the stream's bundles for tags: the headline act and act 0. -/
def State.wantsTag (s : State) (c : SeqCtx) : Bool := c.act = 0 || c.act = s.headline

/-- CAP.FAR.PORTS (Table 1.8). -/
def State.bondedPorts (s : State) : Nat := if s.fuse.grade = 1 then 0xF else 0

/-- The decode fault of a product that engages a generator whose parameters lie outside their ranges (R126). A
block that lies outside the region is found at issue. -/
def State.genFaults (s : State) (n x : Nat) (c : SeqCtx) (j w : Nat) : List Nat :=
  if (j = 3 ∨ j = 4) ∧ slotOp w = 1 ∧ bit w 44 then
    let a := sregGet c.sregs (bits w 26 5)
    let r := s.stageRegion n x
    if r.2 < a + 32 then []
    else if (genBlock (s.readMem (.stage n) (r.1 + a) 32) (bit w 43)).ok (j = 3) then [] else [0x02]
  else []

/-- Whether a generator block that the bundle at word `w` names will still be written by a transfer in flight: its decode
reads the block once the transfer is done (R149). -/
def State.genWaits (s : State) (n x : Nat) (c : SeqCtx) (w : Nat) : Bool :=
  (s.bundleSlots c w).any fun p =>
    (p.1 = 3 || p.1 = 4) && slotOp p.2 = 1 && bit p.2 44 &&
      s.stageReadWaits n (s.core n).nextXfer [((s.stageRegion n x).1 + sregGet c.sregs (bits p.2 26 5), 32)]

/-- The decode faults of the bundle at word `w`, with the slot each stands in; the header's come alone (R164). -/
def State.decodeFaults (s : State) (n x : Nat) (c : SeqCtx) (w : Nat) : List (Nat × Nat) :=
  if c.words ≤ w ∨ headerOk (s.streamWord c w) w c.words = false then [(0, 0x02)]
  else
    (if hdrTagged (s.streamWord c w) = s.wantsTag c then [] else [(0, 0x02)]) ++
      (s.bundleSlots c w).flatMap fun p => (slotFaults p.1 p.2 c.kind x s.bondedPorts ++ s.genFaults n x c p.1 p.2).map
        fun f => (p.1, f)

/-- The slot and status that a list of decode faults reports: the lowest status (R13), at its first slot. -/
def firstFault (l : List (Nat × Nat)) : Nat × Nat :=
  let st := statusOf (l.map (·.2))
  ((l.find? fun p => p.2 = st).getD (0, st))

/-! Issue. -/

/-- The transfers of a context in flight. -/
def State.ctxXfers (s : State) (n x : Nat) : List Xfer := (s.core n).xfers.filter fun t => t.ctx = x

/-- The products of a context in flight. -/
def State.ctxProducts (s : State) (n x : Nat) : List Product :=
  ((s.core n).fwd ++ (s.core n).bwd).filter fun p => p.ctx = x

/-- The operations of a context in the issue queues of the vector and row engines. -/
def State.ctxOps (s : State) (n x : Nat) : List UnitOp :=
  ((s.core n).vecq ++ (s.core n).rowq).filter fun u => u.ctx = x

/-- Whether every effect of the context's earlier bundles is complete (R157, R159). -/
def State.quiet (s : State) (n x : Nat) : Bool :=
  let c := s.ctx n x
  (s.ctxXfers n x).isEmpty && (s.ctxProducts n x).isEmpty && (s.ctxOps n x).isEmpty && c.sigs.isEmpty && c.wait.isNone &&
    c.cueWait.isNone && c.bucketWait.isNone && c.lib.isNone && c.cur.isNone &&
    !(x = 0 && (s.core n).sort.running.isSome)

/-- Whether core `n` belongs to the headline troupe, or counts as such for R206 because an act 0 SERVICE stream
is bound to it (R404). -/
def State.headlineCore (s : State) (n : Nat) : Bool :=
  (s.core n).logical ≠ [] || ((s.ctx n 0).queue.isSome && (s.ctx n 0).act = 0 && (s.ctx n 0).kind = 1)

/-- Whether context `x` of core `n` may issue: a stream is bound and not halted, its queue runs or finishes its
stream, neither the core is fenced nor the module lost, and the contexts take turns as R206 and R207 say. -/
def State.mayIssue (s : State) (n x : Nat) : Bool :=
  let c := s.ctx n x
  let k := s.core n
  c.queue.isSome && !c.ended && !c.reload && k.fenceAt.isNone && c.lib.isNone && s.alive && s.phase ≠ 0xF &&
    (match c.state with | .halted => false | .waitFetch => false | _ => true) &&
    (if x = 1 then k.scrubbing.isNone && !k.abandoned && (k.bubble || !s.headlineCore n) else !k.bubble)

/-- What keeps the bundle at the context's word from issuing, or the fault it meets, or nothing (R139, R157,
R159, R137). -/
inductive Gate where
  | shut (st : Option SeqState)
  | fault (slot status : Nat) (decode : Bool)
  | go
  deriving DecidableEq, Repr

/-- The accumulation descriptors of core `n` that are declared and not COMPLETE, as (base, entries). They belong to
context 0: a sideshow act holds none (R208). -/
def State.openRegions (s : State) (n x : Nat) : List (Nat × Nat) :=
  if x = 1 then []
  else (List.range 64).filterMap fun k =>
    let w0 := s.reg (Reg.mxAcd0 n k)
    if bits w0 48 16 ≠ 0 ∧ !bit (s.reg (Reg.mxAcd1 n k)) 16 then some (bits w0 0 19, bits w0 20 20) else none

/-- The size of the resume record: 512 bytes and the open descriptor regions (R159). -/
def State.recordBytes (s : State) (n x : Nat) : Nat :=
  (s.openRegions n x).foldl (fun a r => a + 4 * r.2) 512

/-- The transfers in flight of a DIN (`true`) or of a DOUT slot. -/
def Core.xferCount (k : Core) (din : Bool) : Nat := (k.xfers.filter fun t => (t.kind = .din) = din).length

/-- The scalar registers that a slot reads, or that a CTRL slot writes (Tables 5.4, 5.5, 5.6, 5.10, 5.15, R155, R156). -/
def slotScalars (j w : Nat) : List Nat :=
  let op := slotOp w
  let f (i : Nat) : Nat := bits w i 5
  match j with
  | 0 =>
    if 1 ≤ op ∧ op ≤ 0x0B then [f 48, f 43, f 38]
    else if op = 0x10 ∨ op = 0x11 then [f 48]
    else if op = 0x12 then [f 48, f 43]
    else if op = 0x14 ∨ op = 0x15 then [f 42, f 37]
    else if op = 0x21 ∨ op = 0x24 ∨ op = 0x26 then [f 48]
    else if op = 0x28 then [f 42, f 37]
    else if op = 0x29 then [f 43]
    else if op = 0x30 then [f 48, 1, 2, 3]
    else []
  | 1 => if op = 0 then [] else [f 45]
  | 2 => if op = 0 then [] else if op = 2 then [f 45, f 10] else [f 45]
  | 3 => if op = 0 then [] else if bit w 44 then [f 31, f 26] else [f 31]
  | 4 => if op = 0 then [] else if bit w 44 then [f 31, f 26] else [f 31]
  | 5 =>
    if op = 0x28 ∨ op = 0x29 then [f 18]
    else if op = 0x2C ∨ op = 0x2D then [bits w 0 4 + 16 * bits w 23 1]
    else if op = 0x31 then [f 30, f 25, f 20, f 15]
    else if 0x30 ≤ op ∧ op ≤ 0x35 then [f 30]
    else []
  | 6 => if op = 0 then [] else [f 29]
  | _ => if op = 3 ∨ op = 5 ∨ op = 6 then [f 42] else []

/-- The scalar register that a queued vector operation will write: a reduction's result, or an advanced pointer. -/
def UnitOp.target (u : UnitOp) : Option Nat :=
  let w := u.w.toNat
  let op := slotOp w
  if 0x38 ≤ op ∧ op ≤ 0x3D then some (bits w 41 5) else if op = 0x32 ∨ op = 0x33 then some (bits w 30 5) else none

/-- Whether a slot of the bundle at word `w` reads or writes a scalar register that still awaits a vector operation: the
bundle waits for it (R139, R143). -/
def State.scalarWaits (s : State) (n x : Nat) (c : SeqCtx) (w : Nat) : Bool :=
  let pend := ((s.core n).vecq.filter fun u => u.ctx = x).filterMap UnitOp.target
  (s.bundleSlots c w).any fun p =>
    guardPasses p.2 c.preds && (slotScalars p.1 p.2).any fun r => r ≠ 0 && pend.contains r

/-- Whether an engine's issue queue has no room: two products wait behind the one that loads or streams. A product that
waits only for its last results to be written has left the queue (R139). -/
def queueFull (l : List Product) : Bool := decide (3 ≤ (l.filter fun p => p.phase ≠ .draining).length)

/-- The gate of the bundle at the context's word. A FENCE or a sync point waits until earlier effects are
complete, a unit's issue queue needs room: two behind the running product, 16 transfers (R139). -/
def State.gate (s : State) (n x : Nat) : Gate :=
  let c := s.ctx n x
  let h := s.streamWord c c.word
  let faults := s.decodeFaults n x c c.word
  let runcnt := match c.queue with | some q => s.fld (Reg.qmQRuncnt q) Fld.qmQRuncntN | none => 0
  if runcnt ≠ 0 ∧ runcnt = c.off then .shut none
  else if s.genWaits n x c c.word then .shut none
  else if faults ≠ [] then .fault (firstFault faults).1 (firstFault faults).2 true
  else if hdrSync h ∧ !c.syncDone then
    if c.resume = 0 ∨ c.resumeKib * 1024 < s.recordBytes n x then .fault 0 0x02 false
    else .shut (some .waitFence)
  else
    let sl := s.bundleSlots c c.word
    let has (j : Nat) := sl.any fun p => p.1 = j && slotOp p.2 ≠ 0
    let fence := sl.any fun p => p.1 = 7 && slotOp p.2 = 1 && guardPasses p.2 c.preds
    let k := s.core n
    if fence ∧ !s.quiet n x then .shut (some .waitFence)
    else if c.wait.isSome ∨ c.bucketWait.isSome then .shut (some .waitSem)
    else if c.cueWait.isSome then .shut (some .waitCue)
    else if s.scalarWaits n x c c.word then .shut (some .waitScalar)
    else if (has 3 ∧ queueFull k.fwd) ∨ (has 4 ∧ queueFull k.bwd) ∨ (has 1 ∧ 16 ≤ k.xferCount true) ∨
        (has 2 ∧ 16 ≤ k.xferCount false) ∨ (has 5 ∧ 2 ≤ k.vecq.length) ∨ (has 6 ∧ 2 ≤ k.rowq.length) then
      .shut (some .waitSlot)
    else .go

/-- Issues the bundle at the context's word: it becomes the open bundle, the stream offset counts it, and every
slot will read the scalars and predicates as they stand now (R136, R139). -/
def State.issue (s : State) (n x : Nat) : State :=
  let c := s.ctx n x
  let h := s.streamWord c c.word
  let b : OpenBundle :=
    { word := c.word, length := hdrLength h, off := c.off, flags := BitVec.ofNat 8 (bits h 8 8),
      tag := s.bundleTag c c.word, step := c.step,
      todo := (s.bundleSlots c c.word).map fun p => (p.1, BitVec.ofNat 64 p.2),
      sregs := c.sregs, preds := c.preds, ctl := .seq }
  s.modCtx n x fun c => { c with cur := some b, off := (c.off + 1) % 2 ^ 32, word := c.word + b.length,
                                 syncDone := false, state := .issuing, lastIssue := s.now,
                                 notifies := if hdrNotify h then c.notifies ++ [(b.off, b.tag)] else c.notifies }

/-- Gives back the messages that the stream of a context consumed since its last resume record: a re-issued DIN reads
them again (R342). A host-to-device end lists only consumed messages. -/
def State.rollCopies (s : State) (c : SeqCtx) : State :=
  s.each c.copyCons fun p s =>
    s.modQueue p.1 fun k =>
      let back (h : HeldMsg) : Bool := h.consumed.isSome && h.consumer = c.queue && !h.released
      { k with held := if s.fld (Reg.qmQPeer p.1) Fld.qmQPeerKind = 0 then k.held.filter fun h => !back h
          else k.held.map fun h => if back h then { h with consumed := none, consumer := none } else h }

/-- Restarts the bound stream from its last resume record, or from its first bundle when it has written none (R159,
R160, R342). -/
def State.loadRecord (s : State) (n x : Nat) : State :=
  let c := s.ctx n x
  let s := (s.rollCopies c).stirred n
  match c.queue with
  | none => s
  | some q =>
    let k := s.queue q
    match k.rec_ with
    | some r =>
      let s := s.modCtx n x fun c =>
        { c with word := r.word, off := r.off, sregs := r.sregs, preds := r.preds, loops := r.loops, step := r.step,
                 state := .issuing, syncDone := true, reload := false, ended := false, copyCons := [], fetched := r.word }
      let s := s.each (indexed 0 r.acds) fun p s =>
        (s.setReg (Reg.mxAcd0 n p.1) p.2.1.toNat).setReg (Reg.mxAcd1 n p.1) p.2.2.toNat
      s.modCore n fun k =>
        { k with acc := r.regions.foldl (fun m e => Sparse.set 0 m e.1 e.2) k.acc
                 accPoison := r.regions.foldl (fun m e => Sparse.set false m e.1 (r.marks.contains e.1)) k.accPoison }
    | none =>
      s.modCtx n x fun c =>
        { c with word := 0, off := k.off, step := k.entryStep, loops := [], state := .issuing, syncDone := false,
                 reload := false, ended := false, copyCons := [], fetched := 0 }

/-- A context whose stream waits to be restarted loads its record once every effect of the earlier bundles is
complete. -/
def State.tryReload (s : State) (n x : Nat) : State :=
  if (s.ctx n x).reload && s.quiet n x then s.loadRecord n x else s

/-- Opens the next bundle if none is open: the state afterwards, and the open bundle when there is one. A
decode fault or a fault at issue is taken here; a gate that is shut only shows in SEQ.STATUS.STATE. -/
def State.openNext (s : State) (n x : Nat) : State × Option OpenBundle :=
  let s := s.tryReload n x
  let c := s.ctx n x
  match c.cur with
  | some b => (s, some b)
  | none =>
    if s.mayIssue n x then
      match s.gate n x with
      | .shut st => (match st with
          | some w => s.modCtx n x fun c => { c with state := w }
          | none => s, none)
      | .fault slot status d =>
        (if d then s.decodeFault n x slot status c.word c.off (s.bundleTag c c.word)
            ((s.decodeFaults n x c c.word).map (·.2))
         else s.execFault n x slot status c.word c.off (s.bundleTag c c.word), none)
      | .go =>
        let t := s.issue n x
        (t, (t.ctx n x).cur)
    else (s, none)

/-- The shared form of a slot operation: when the lowest slot still to run of the context's open or next bundle
is slot `slot` with opcode `op`, it runs; a slot whose guard fails is skipped (R138). `ready` is the interlock
that must let it run now (R92, R143, R149). Otherwise the command finds nothing to do, and the state is as
before, except that a fault of the next bundle has been taken. -/
def State.onSlot (s : State) (n x slot op : Nat) (ready : State → OpenBundle → Nat → Bool)
    (eff : OpenBundle → Nat → State → State) : State :=
  match s.openNext n x with
  | (t, none) => t
  | (t, some b) =>
    match b.todo with
    | (j, w) :: rest =>
      if j = slot ∧ slotOp w.toNat = op then
        let u := t.modCtx n x fun c => { c with cur := some { b with todo := rest } }
        if guardPasses w.toNat b.preds then
          if ready t b w.toNat then eff b w.toNat u else t
        else u
      else s
    | [] => s

/-- The issue queue of the vector engine (slot 5) or of the row engine (R139). -/
def Core.unitq (k : Core) (slot : Nat) : List UnitOp := if slot = 5 then k.vecq else k.rowq

/-- Sets the issue queue of the vector or row engine. -/
def Core.setUnitq (k : Core) (slot : Nat) (l : List UnitOp) : Core :=
  if slot = 5 then { k with vecq := l } else { k with rowq := l }

/-- The state as work of place `idx` in the order of core `n` sees it: what was issued later is not its concern. -/
def State.asOf (s : State) (n idx : Nat) : State := s.modCore n fun k => { k with nextXfer := idx }

/-- The open bundle's slot joins its unit's issue queue behind what is there, two at the most (R139). -/
def State.enqueueUnit (s : State) (n x slot : Nat) (b : OpenBundle) (w : Word64) (rest : List (Nat × Word64)) (foot : Foot) :
    State :=
  (s.modCore n fun k =>
    { k.setUnitq slot (k.unitq slot ++ [{ ctx := x, b := { b with todo := [] }, w := w, idx := k.nextXfer, foot := foot }])
      with nextXfer := k.nextXfer + 1 }).modCtx n x fun c => { c with cur := some { b with todo := rest } }

/-- The shared form of an operation of the vector or row engine. The front of the unit's issue queue runs when it is this
operation and its interlock is open; otherwise the open or next bundle's slot runs, at once when the queue is empty and its
interlock open, or joins the queue, as long as that holds fewer than two (R139). `foot` is what the operation will touch;
its last argument says whether others of the queue go before it. -/
def State.onUnit (s : State) (n x slot op : Nat) (ready : State → OpenBundle → Nat → Bool)
    (foot : State → OpenBundle → Nat → Bool → Foot) (eff : OpenBundle → Nat → State → State) : State :=
  let issueNow : State :=
    match s.openNext n x with
    | (t, none) => t
    | (t, some b) =>
      match b.todo with
      | (j, w) :: rest =>
        if j = slot ∧ slotOp w.toNat = op then
          let u := t.modCtx n x fun c => { c with cur := some { b with todo := rest } }
          let q := (t.core n).unitq slot
          if guardPasses w.toNat b.preds then
            if q = [] ∧ ready t b w.toNat then eff b w.toNat (u.stirred n)
            else if q.length < 2 then t.enqueueUnit n x slot b w rest (foot t b w.toNat (q ≠ []))
            else t
          else u
        else s
      | [] => s
  match (s.core n).unitq slot with
  | [] => issueNow
  | u :: q =>
    if u.ctx = x ∧ slotOp u.w.toNat = op ∧ ready (s.asOf n u.idx) u.b u.w.toNat then
      eff u.b u.w.toNat ((s.modCore n fun k => k.setUnitq slot q).stirred n)
    else issueNow

/-- An operation that touches neither buffer. -/
def noFoot : State → OpenBundle → Nat → Bool → Foot := fun _ _ _ _ => ⟨[], [], [], []⟩

/-- The whole of a context's regions, for an operation whose addresses depend on others of its queue. -/
def State.wholeFoot (s : State) (n x : Nat) (reads writes acc : Bool) : Foot :=
  let st := if reads then [s.stageRegion n x] else []
  { reads := st, writes := if writes then [s.stageRegion n x] else [],
    accReads := if acc then [s.accRegion n x] else [], accWrites := if acc ∧ writes then [s.accRegion n x] else [] }

/-- An operation that never waits once its bundle has issued. -/
def always : State → OpenBundle → Nat → Bool := fun _ _ _ => true

/-! Control flow. -/

/-- Every bundle of the stream, from word `w`: its first word and its length. The first argument bounds the
walk. -/
def State.bundleStarts (s : State) (c : SeqCtx) : Nat → Nat → List (Nat × Nat)
  | 0, _ => []
  | f + 1, w =>
    if w < c.words then
      let l := hdrLength (s.streamWord c w)
      if l = 0 then [] else (w, l) :: State.bundleStarts s c f (w + l)
    else []

/-- The loop bodies of the stream: the first word of the body's first bundle and of its last (R142, R144). -/
def State.loopBodies (s : State) (c : SeqCtx) (starts : List (Nat × Nat)) : List (Nat × Nat) :=
  starts.filterMap fun p =>
    match (s.bundleSlots c p.1).find? fun t => t.1 = 0 && slotOp t.2 = 0x24 with
    | some t =>
      let e := p.1 + bits t.2 0 24
      if p.1 + p.2 ≤ e ∧ (starts.any fun z => z.1 = e) then some (p.1 + p.2, e) else none
    | none => none

/-- The innermost of the bodies that contain a word: the one that begins last. -/
def innermost (bodies : List (Nat × Nat)) (w : Nat) : Option (Nat × Nat) :=
  (bodies.filter fun b => decide (b.1 ≤ w) && decide (w ≤ b.2)).foldl
    (fun a b => match a with
      | none => some b
      | some m => if m.1 < b.1 then some b else some m) none

/-- Whether a taken branch may go to a word (R142). -/
def State.targetOk (s : State) (c : SeqCtx) (w : Nat) : Bool :=
  let st := s.bundleStarts c c.words 0
  (st.any fun p => p.1 = w) &&
    (innermost (s.loopBodies c st) w = (c.loops.head?.map fun l => (l.first, l.last)))

/-- What follows the last bundle of a body: the innermost loops that end there iterate or close, and control
goes to the first bundle of the body, or past it (R144). -/
def afterBody (last next : Nat) : List LoopLvl → List LoopLvl × Nat
  | [] => ([], next)
  | l :: ls =>
    if l.last = last then
      if l.index + 1 < l.count then ({ l with index := l.index + 1 } :: ls, l.first)
      else afterBody last next ls
    else (l :: ls, next)

/-- The words of the bundle buffer, 64 KiB (R142). -/
def bufferWords : Nat := 16384

/-- Goes to a word: a target outside the bundle buffer is fetched first (R142). The buffer holds the words that
follow `fetched` (DESIGN CHOICE, log 13). -/
def SeqCtx.goto (c : SeqCtx) (w : Nat) (taken : Bool) : SeqCtx :=
  if taken ∧ !(decide (c.fetched ≤ w) && decide (w < c.fetched + bufferWords)) then
    { c with word := w, state := .waitFetch }
  else { c with word := w, fetched := max c.fetched (w + 1 - bufferWords) }

/-- Retires the open bundle, all of whose slots have run: the step number advances under STEP, LAST ends the
stream unless a branch was taken, and loops iterate (R133, R144, R145, R147). -/
def State.retire (s : State) (n x : Nat) (b : OpenBundle) : State :=
  let jumped := match b.ctl with | .jump _ => true | _ => false
  s.modCtx n x fun c =>
    let c := { c with cur := none, step := if b.flags.getLsbD 3 then (c.step + 1) % 2 ^ 32 else c.step }
    if c.state = .halted then c
    else if b.flags.getLsbD 2 ∧ !jumped then { c with ended := true, loops := [] }
    else
      let next := b.word + b.length
      match b.ctl with
      | .jump w => c.goto w true
      | .enter count first last =>
        if count = 0 then
          let r := afterBody last (last + hdrLength (s.streamWord c last)) c.loops
          { c with loops := r.1 }.goto r.2 false
        else { c with loops := { count := count, index := 0, first := first, last := last } :: c.loops }.goto
          first false
      | .leave =>
        match c.loops with
        | l :: ls =>
          let r := afterBody l.last (l.last + hdrLength (s.streamWord c l.last)) ls
          { c with loops := r.1 }.goto r.2 false
        | [] => c.goto next false
      | .seq =>
        let r := afterBody b.word next c.loops
        { c with loops := r.1 }.goto r.2 false

/-- Sets what the CTRL slot asks of the open bundle's retirement. -/
def State.setCtl (s : State) (n x : Nat) (e : CtlEffect) : State :=
  s.modCtx n x fun c => { c with cur := c.cur.map fun b => { b with ctl := e } }

end Sys2Proof.Machine
end

