-- ==== Sys2Proof/Machine/Views.lean ====
section
/-! DEFINITION. The registers of a core that show what its units hold: SEQ (Table 5.14), MX.STATUS and MX.XPQ
(Table 3.10), VX, ROW and CV (Table 4.9). -/

namespace Sys2Proof.Machine

/-- The code of a context's state (Table 5.14). -/
def SeqState.code : SeqState → Nat
  | .issuing => 0 | .waitSlot => 1 | .waitScalar => 2 | .waitFence => 3 | .waitSem => 4 | .waitCue => 5
  | .waitRecv => 6 | .waitFetch => 7 | .halted => 8 | .preempted => 9 | .noStream => 10

/-- Whether a context waits for a copy message: a DIN in flight from a copy queue (R149). Later bundles that need nothing of
it may issue meanwhile (DESIGN CHOICE, log 160). -/
def State.waitsRecv (s : State) (n x : Nat) : Bool :=
  (s.ctxXfers n x).any fun t => t.kind = .din && t.space = 3

/-- Whether a RECOVER stream holds context 0 of a core: queues wait for their streams to be resumed there (R162, R340). -/
def State.recovering (s : State) (n x : Nat) : Bool :=
  x = 0 && (s.ctx n 0).queue.isNone && (s.core n).recover ≠ [] && (s.core n).testing.isNone

/-- SEQ.STATUS (Table 5.14); a RECOVER stream is bound while it restores records. -/
def State.seqStatus (s : State) (n x : Nat) : Nat :=
  let c := s.ctx n x
  let st := if c.wait.isSome || c.bucketWait.isSome then 4 else if c.cueWait.isSome then 5
    else if s.waitsRecv n x ∧ c.cur.isNone ∧ c.state ≠ .halted then 6 else c.state.code
  if s.recovering n x then 1 + 3 * 2
  else b2n c.queue.isSome + (if c.queue.isSome then c.runKind * 2 else 0) + st * 256 + c.loops.length * 4096

/-- The word of a SEQ register at offset `o` of context `x`'s block, if it shows the context's state. -/
def State.seqView (s : State) (n x o : Nat) : Option Nat :=
  let c := s.ctx n x
  if o = 0 then some (s.seqStatus n x)
  else if o = 0x8 then some (c.off + c.word * 2 ^ 32)
  else if o = 0x28 then some c.step
  else if o = 0x30 then some c.preds.toNat
  else if 0x38 ≤ o ∧ o < 0x58 ∧ o % 8 = 0 then
    some (match c.loops[(o - 0x38) / 8]? with | some l => l.count + l.index * 2 ^ 32 | none => 0)
  else if 0x100 ≤ o ∧ o < 0x200 ∧ o % 8 = 0 then some (sregGet c.sregs ((o - 0x100) / 8))
  else none

/-- MX.STATUS (Table 3.10). -/
def State.mxStatus (s : State) (n : Nat) : Nat :=
  let k := s.core n
  let loading (l : List Product) := l.any fun p => p.phase = .loading
  b2n (k.fwd ≠ []) + b2n (k.bwd ≠ []) * 2 + b2n (loading k.fwd) * 4 + b2n (loading k.bwd) * 8 +
    b2n (k.accSplit ≠ s.fld (Reg.mxCtl n) Fld.mxCtlAccSplit) * 16

/-- CV.STATUS (Table 4.9). -/
def State.cvStatus (s : State) (n : Nat) : Nat :=
  let k := s.core n
  let gen (l : List Product) := l.findSome? fun p => if p.phase = .draining then none else p.gen
  b2n (gen k.fwd).isSome + b2n (gen k.bwd).isSome * 2 + (match gen k.bwd with | some g => b2n g.wgtPort * 4 | none => 0)

/-- Whether an operation of the vector (slot 5) or row engine is in flight: issued with its bundle and not yet run. -/
def State.unitBusy (s : State) (n slot : Nat) : Bool :=
  let held (c : SeqCtx) : Bool :=
    match c.cur with | some b => b.todo.any fun p => p.1 = slot && slotOp p.2.toNat ≠ 0 | none => false
  (s.core n).unitq slot ≠ [] || held (s.ctx n 0) || held (s.ctx n 1)

/-- 128 lanes of a vector register of a bank (R104, R208). -/
def Core.vreg (k : Core) (x r : Nat) : List Word32 := Sparse.get (List.replicate 128 0) k.vregs (x * 64 + r)

/-- A mask register of a bank. -/
def Core.mask (k : Core) (x m : Nat) : BitVec 128 := Sparse.get 0 k.masks (x * 8 + m)

/-- The register of a core window at offset `o` when it shows a unit's state and not a stored word. -/
def State.coreView (s : State) (n o : Nat) : Option Nat :=
  let k := s.core n
  if 0x2000 ≤ o ∧ o < 0x2800 then s.seqView n 0 (o - 0x2000)
  else if 0x2800 ≤ o ∧ o < 0x3000 then s.seqView n 1 (o - 0x2800)
  else if o = 0x3008 then some (s.mxStatus n)
  else if o = 0x5000 then some (b2n (s.unitBusy n 5) + b2n k.sort.running.isSome * 2)
  else if 0x5100 ≤ o ∧ o < 0x5180 ∧ o % 8 = 0 then
    some (bits (k.mask 0 ((o - 0x5100) / 16)).toNat (((o - 0x5100) / 8 % 2) * 64) 64)
  else if o = 0x6000 then some (b2n (s.unitBusy n 6))
  else if o = 0x6010 then
    some (Sparse.get 0 k.side (s.fld (Reg.rowSideIdx n) Fld.rowSideIdxIndex)).toNat
  else if o = 0x7000 then some (s.cvStatus n)
  else if 0x8000 ≤ o ∧ o < 0x10000 ∧ o % 8 = 0 then
    let v := k.vreg 0 ((o - 0x8000) / 0x200)
    let j := (o - 0x8000) % 0x200 / 8
    some (((v[2 * j]?).getD 0).toNat + ((v[2 * j + 1]?).getD 0).toNat * 2 ^ 32)
  else none

/-- The offsets of the registers that show a unit's state and not a stored word, the vector registers, masks and side
memory left out: an abandoned core's work leaves those alone. -/
def viewOffsets : List Nat :=
  [0x3008, 0x5000, 0x6000, 0x7000] ++ ([0x2000, 0x2800].flatMap fun b =>
    [b, b + 8, b + 0x28] ++ (List.range 5).map (fun i => b + 0x30 + 8 * i) ++ (List.range 32).map fun i => b + 0x100 + 8 * i)

/-- The words of a core's window at the moment of fencing: what its units show, then every stored word; a register that
is in neither list holds its reset value (R31). -/
def State.frozenWindow (s : State) (n : Nat) : List (Nat × Word64) :=
  let base := 0x1000000 + n * 0x10000
  (viewOffsets.filterMap fun o => (s.coreView n o).map fun v => (base + o, BitVec.ofNat 64 v)) ++
    s.regs.filter fun p => decide (base ≤ p.1) && decide (p.1 < base + 0x10000)

end Sys2Proof.Machine
end

