-- ==== Sys2Proof/Machine/Fence.lean ====
section
/-! DEFINITION. What the Safety Net does to a core and to the module: fencing and re-mapping a core (R338 to
R341), abandoning unit work (R207, R93), leaving a stream for a later re-issue (R340, R342), and declaring the
module lost (R337). -/

namespace Sys2Proof.Machine

/-! The module. -/

/-- The warden of a subject: the primary, or the backup when the subject is the primary (R348, R350). -/
def State.wardenOf (s : State) (subject : Nat) : Nat :=
  let p := s.fld Reg.netWarden Fld.netWardenPrimary
  if subject = p then s.fld Reg.netWarden Fld.netWardenBackup else p

/-- The act's step number: that of each of its streams, here of its lowest command queue (R147). -/
def State.actStep (s : State) (a : Nat) : Nat :=
  match (s.queues.map (·.1)).find? fun q => s.qCreated q && s.qType q = 1 && s.ownsQueue a q with
  | some q =>
    (match (s.queue q).bound with
      | some (n, x) => (s.ctx n x).step
      | none => (s.queue q).step)
  | none => 0

/-- Every enabled act of acts 1 to 8. -/
def State.enabledActs (s : State) : List Nat := (List.range 9).filter fun a => a ≠ 0 && s.actEnabled a

/-- Every created queue. -/
def State.createdQueues (s : State) : List Nat :=
  (s.queues.map (·.1)).filter fun q => s.qCreated q

/-- The module declares itself lost: the black box freezes with cause 1, PHASE reads 0xF, LOST goes to the
warden, every queue stops and no bundle issues (R337). -/
def State.moduleLost (s : State) : State :=
  if s.phase = 0xF then s
  else
    let s := s.bbxFreeze 1
    let s := (s.setFld Reg.topState Fld.topStatePhase 0xF).setFld Reg.netStatus Fld.netStatusLost 1
    let s := s.heartbeat (s.wardenOf s.self) 4 s.self (s.actStep s.fabricAct) 0
    let s := s.each s.createdQueues fun q s => s.setFld (Reg.qmQState q) Fld.qmQStateState 1
    s.each (s.cores.map (·.1)) fun n s =>
      let stop (c : SeqCtx) : SeqCtx := { c with state := .halted, reload := false }
      (s.modCtx n 0 stop).modCtx n 1 stop

/-! Accumulator marks. -/

/-- The logical columns of an array for a product's weights: 128, 64 or 32 (Table 3.2). -/
def Product.cols (p : Product) : Nat :=
  match fmtType p.wview.fmt with | 1 => 128 | 2 => 64 | _ => 32

/-- The arrays a product names. -/
def Product.arrayList (p : Product) : List Nat := (List.range 4).filter fun j => p.arrays.getLsbD j

/-- The accumulator entry of activation row `m`, array `j`, column `c` (R152), in the context's own numbering. -/
def Product.entry (p : Product) (m j c : Nat) : Int :=
  (p.dest : Int) + (j : Int) * p.dstep + ((m * (if p.pitch = 0 then p.cols else p.pitch) + c : Nat) : Int)

/-- Every entry of a product's destination. -/
def Product.entries (p : Product) : List Nat :=
  (List.range p.rows).flatMap fun m => p.arrayList.flatMap fun j =>
    (List.range p.cols).map fun c => (p.entry m j c).toNat

/-- Marks accumulator entries, in a context's numbering, as poisoned (R93). -/
def State.markAcc (s : State) (n x : Nat) (l : List Nat) : State :=
  let base := (s.accRegion n x).1
  s.modCore n fun k => { k with accPoison := l.foldl (fun m e => Sparse.put m (base + e) true) k.accPoison }

/-- The products of an engine, oldest first. -/
def Core.engine (k : Core) (e : Nat) : List Product := if e = 0 then k.fwd else k.bwd

/-- Sets the products of an engine. -/
def Core.setEngine (k : Core) (e : Nat) (l : List Product) : Core :=
  if e = 0 then { k with fwd := l } else { k with bwd := l }

/-- The product that an engine loads or streams: the oldest that has a row left to take (R77, R78). -/
def Core.active (k : Core) (e : Nat) : Option Product := (k.engine e).find? fun p => p.phase ≠ .draining

/-- An expander with nothing read. -/
def Xp.reset : Xp := { pos := 0, first := 0, elems := [], cache := [], fetching := none, ended := false }

/-- Expander `x` of a core. -/
def Core.xp (k : Core) (x : Nat) : Xp := Sparse.get Xp.reset k.xps x

/-- Changes an expander. -/
def Core.modXp (k : Core) (x : Nat) (f : Xp → Xp) : Core := { k with xps := Sparse.put k.xps x (f (k.xp x)) }

/-- Sets MX.XPQ.LEVEL and lowers LOW to it. Levels are those at the steps of this model (log 32). -/
def State.setLevel (s : State) (n x bytes : Nat) : State :=
  let k := Reg.mxXpq n x
  let v := min 8192 bytes
  (s.setFld k Fld.mxXpqLevel v).setFld k Fld.mxXpqLow (min v (s.fld k Fld.mxXpqLow))

/-- Empties the expanders of an engine with their smoothing queues; their table caches stay (R96). -/
def State.freshXps (s : State) (n e : Nat) : State :=
  let f (x : Xp) : Xp := { Xp.reset with cache := x.cache }
  let s := s.modCore n fun k => (k.modXp (2 * e) f).modXp (2 * e + 1) f
  (s.setLevel n (2 * e) 0).setLevel n (2 * e + 1) 0

/-- Takes the products that pass `drop` out of an engine. Where the product that loads or streams is one of them, nothing
of its operands carries over to the next (R96). -/
def State.dropProducts (s : State) (n e : Nat) (drop : Product → Bool) : State :=
  let fresh := match (s.core n).active e with | some p => drop p | none => false
  let s := s.modCore n fun k => k.setEngine e ((k.engine e).filter fun p => !drop p)
  if fresh then s.freshXps n e else s

/-- A context that issues no more: its open bundle and everything that waits to take effect are abandoned (R338). -/
def SeqCtx.dropIssue (c : SeqCtx) : SeqCtx :=
  { c with cur := none, sigs := [], wait := none, cueWait := none, bucketWait := none, lib := none, notifies := [],
           reload := false }

/-- Abandons a context's unfinished unit work: its products leave the engines and the entries they would have
written are marked (R207, R93, R338). -/
def State.abandonUnits (s : State) (n x : Nat) : State :=
  let s := s.each (s.ctxProducts n x) fun p s => s.markAcc n x p.entries
  let s := (s.dropProducts n 0 fun p => p.ctx = x).dropProducts n 1 fun p => p.ctx = x
  s.modCore n fun k =>
    { k with vecq := k.vecq.filter fun u => u.ctx ≠ x
             rowq := k.rowq.filter fun u => u.ctx ≠ x
             sort := if x = 0 then { k.sort with running := none } else k.sort }

/-! Streams. -/

/-- Takes the stream off a context. The queue takes back the step number (R147) and keeps the last resume record and the
conditions met so far; a stream without a record will start again from its first bundle (R340, R342). -/
def State.unbind (s : State) (n x : Nat) : State :=
  let c := s.ctx n x
  match c.queue with
  | none => s
  | some q =>
    let s := (s.rollCopies c).modQueue q fun k => { k with bound := none, conds := c.conds, step := c.step }
    s.modCtx n x fun c => c.vacate

/-- The queue whose stream is bound to context `x` of core `n`. -/
def State.boundQueue (s : State) (n x : Nat) : Option Nat := (s.ctx n x).queue

/-! Fencing. -/

/-- Whether core `n` is an in-service core of the headline troupe hosting exactly one logical core. -/
def State.canDouble (s : State) (n : Nat) : Bool := s.coreState n = 3 && (s.core n).logical.length = 1

/-- The lowest core that satisfies a condition. -/
def lowestCore (f : Nat → Bool) : Option Nat := (List.range 208).find? f

/-- The first physical core that R339 gives a logical core of act `a` whose fenced core lies on die `d`: an idle
spare of the die, an idle spare anywhere when the act has no die-buffer window, or a core to double. -/
def State.remapChoice (s : State) (a d : Nat) : Option Nat :=
  match lowestCore fun n => s.coreState n = 1 && coreDie n = d with
  | some n => some n
  | none =>
    match (if s.fld (Reg.memDbw a) Fld.memDbwSizeMib = 0 then lowestCore fun n => s.coreState n = 1 else none) with
    | some n => some n
    | none => lowestCore fun n => s.canDouble n && coreDie n = d

/-- Writes NET.CORE_n from what the core hosts (Table 12.10). -/
def State.showCore (s : State) (n state : Nat) : State :=
  let l := (s.core n).logical
  let k := Reg.netCore n
  let s := s.setFld k Fld.netCoreState state
  let s := s.setFld k Fld.netCoreLogical ((l.head?.map (·.2)).getD 0)
  let s := s.setFld k Fld.netCoreLogical2 (((l.drop 1).head?.map (·.2)).getD 0)
  s.setFld k Fld.netCoreAct ((l.head?.map (·.1)).getD 0)

/-- Recomputes the counts of NET.STATUS from the cores (Table 12.10). -/
def State.countCores (s : State) : State :=
  let cnt (v : Nat) := ((List.range 208).filter fun n => s.coreState n = v).length
  ((s.setFld Reg.netStatus Fld.netStatusSpares (cnt 1)).setFld Reg.netStatus Fld.netStatusFenced
    (cnt 4)).setFld Reg.netStatus Fld.netStatusDoubled (cnt 5)

/-- Whether a spare's built-in test has passed within SPARE_TEST_S seconds (R339). -/
def State.testCurrent (s : State) (n : Nat) : Bool :=
  match (s.core n).lastTest with
  | some t => decide (s.uptime ≤ t + s.fld Reg.netCtl Fld.netCtlSpareTestS * 1000000000)
  | none => false

/-- Gives logical core `l` of act `a` to physical core `n`, with the queues whose streams a RECOVER stream will
resume there (R339, R340). A spare whose test is not current is tested first; a second logical core doubles the
core and sends a sideshow act away (R341). -/
def State.assignCore (s : State) (n a l d : Nat) (qs : List Nat) : State :=
  let spare := decide (s.coreState n = 1)
  if spare && !s.testCurrent n then
    let s := s.modCore n fun k => { k with testing := some (a, l, d), recover := qs }
    (s.setFld (Reg.netCore n) Fld.netCoreState 2).countCores
  else
    let s := if spare then s else s.unbind n 1
    let s := s.modCore n fun k =>
      { k with logical := k.logical ++ [(a, l)], recover := k.recover ++ qs,
               sideHolder := if spare then k.sideHolder else none }
    (s.showCore n (if spare then 3 else 5)).countCores

/-- Maps a logical core anew under R339, or declares the module lost. -/
def State.remapLogical (s : State) (a l d : Nat) (qs : List Nat) : State :=
  match s.remapChoice a d with
  | some n => s.assignCore n a l d qs
  | none => s.moduleLost

/-- The FAULT record of a core: CORE_FENCED, the physical core in the record (R338). -/
def State.fencedRec (s : State) (n cause : Nat) : EvRec :=
  { typ := 0x0C, severity := openSeverity 0x0C 0x50, status := 0x50, act := 0, isOffset := false, queue := none,
    core := 0xFFFF, phys := n, mw1 := decide (4 ≤ coreDie n), stamp := s.now, tag := 0,
    payload := openPayload 0x0C 0x50 cause s.now }

/-- The queues of act `a` whose Q_CFG.CORE names logical core `l`. -/
def State.queuesOfLogical (s : State) (a l : Nat) : List Nat :=
  s.createdQueues.filter fun q =>
    s.ownsQueue a q && s.qType q = 1 && s.fld (Reg.qmQCfg q) Fld.qmQCfgCore = l

/-- A core fault fences core `n` (R338): issue stops, unit work is abandoned, transfers run on, the core is
FENCED with its cause, and one FAULT event, marked with the bundle that caused it (R135), is written to act 0 and the
acts it affects. Its streams leave the
core; a logical core for which it was tested goes to the next choice (R339); its logical cores are mapped anew (R339); an act 0 stream stops as after an execution fault (R404). -/
def State.fenceCore (s : State) (n cause : Nat) (mark : EvRec → EvRec) : State :=
  let st := s.coreState n
  if st = 0 ∨ st = 4 then s
  else
    let frozen := s.frozenWindow n
    let side := (s.ctx n 1).act
    let logical := (s.core n).logical
    let testing := (s.core n).testing
    let again := (s.core n).recover
    let act0 := (s.ctx n 0).queue.isSome && (s.ctx n 0).act = 0
    let s := (s.abandonUnits n 0).abandonUnits n 1
    let s := if act0 then (s.modCtx n 0 SeqCtx.dropIssue).haltStream n 0 6 else s
    let running := match s.boundQueue n 0 with | some q => if act0 then [] else [q] | none => []
    let s := if act0 then s else s.unbind n 0
    let s := s.unbind n 1
    let s := s.modCore n fun k =>
      { k with fenceAt := some s.now, frozenRegs := frozen, logical := [], bubble := false, abandoned := false,
               scrubbing := none, testing := none, recover := [], leaving := none, sideHolder := none }
    let s := s.showCore n 4
    let s := (s.setFld (Reg.netCore n) Fld.netCoreCause cause).setFld (Reg.netCore n) Fld.netCoreStamp s.now
    let s := s.countCores
    let s := s.broadcast ((logical.map (·.1)) ++ (if (s.ctx n 1).lastAct.isSome then [side] else []))
      (mark (s.fencedRec n cause))
    let s := match testing with
      | some (a, l, d) => s.remapLogical a l d again
      | none => s
    s.each logical fun p s =>
      s.remapLogical p.1 p.2 (coreDie n)
        ((running ++ again).filter fun q => s.fld (Reg.qmQCfg q) Fld.qmQCfgCore = p.2)

/-- An operation of a bundle that reads a core's buffers: an uncorrectable error there fences the core, and nothing from the
read is used (R179). -/
def State.unlessUe (n x : Nat) (ue : Bool) (eff : OpenBundle → Nat → State → State) (b : OpenBundle) (w : Nat) (s : State) :
    State :=
  if ue then s.fenceCore n 2 (EvRec.by_ x b.off b.tag) else eff b w s

end Sys2Proof.Machine
end

