-- ==== Sys2Proof/Machine/Operands.lean ====
section
/-! DEFINITION. The operands of a product: tensor views read along and across (R85 to R88, R152), packed views,
and the convolution address generators (R126 to R129). -/

namespace Sys2Proof.Machine

/-! Descriptors (Table 5.7). -/

/-- The view that 16 bytes spell. -/
def parseView (b : Bytes) : View :=
  let a := fieldAt b 0 8
  let c := fieldAt b 8 8
  { elem := bits a 0 22, scale := bits a 22 22, elemPitch := bits a 44 20, side := bits c 0 22,
    scalePitch := bits c 22 14, sidePitch := bits c 36 14, fmt := bits c 50 8, packed := bit c 58 }

/-- Whether a product descriptor sets a reserved bit (R152). -/
def prodReserved (b : Bytes) : Bool :=
  bits (fieldAt b 8 8) 59 5 ≠ 0 || bits (fieldAt b 24 8) 59 5 ≠ 0 || bits (fieldAt b 32 4) 27 5 ≠ 0 ||
    bits (fieldAt b 52 4) 19 13 ≠ 0 || bits (fieldAt b 60 4) 20 12 ≠ 0

/-- The product that a slot and a descriptor spell, as its engine's queue receives it. -/
def parseProduct (n_idx ctx act off : Nat) (tag : Word32) (w : Nat) (b : Bytes) (gen : Option GenBlock) : Product :=
  { idx := n_idx, ctx := ctx, act := act, off := off, tag := tag, arrays := BitVec.ofNat 4 (bits w 49 4),
    mode := bits w 47 2, mirAct := bit w 46, mirWgt := bit w 45, gen := gen,
    acd := if bit w 36 then some (bits w 37 6) else none, aview := parseView (b.take 16),
    wview := parseView ((b.drop 16).take 16), rows := bits (fieldAt b 32 4) 0 20 + 1,
    kp := bits (fieldAt b 32 4) 20 7 + 1, row0 := fieldAt b 36 4, k0 := fieldAt b 40 4, wrow := fieldAt b 44 4,
    wstep := fieldAt b 48 4, dest := bits (fieldAt b 52 4) 0 19, dstep := toSigned 32 (fieldAt b 56 4),
    pitch := bits (fieldAt b 60 4) 0 20, phase := .queued, row := 0, weights := [] }

/-! Elements of views. -/

/-- Elements per group as a port reads them: plain elements stand alone. -/
def unitG (f : Nat) : Nat := max 1 (fmtG f)

/-- A zero element, as padding and missing positions give it (R98, R128): in a block-scaled operand it belongs to a
zero group. -/
def zeroEl (f : Nat) : El := { scale := if fmtG f = 0 then 0xA0 else 0, poison := false, x := .val Dy.zero }

/-- Group `g` of stored row `r` of an unpacked view, from the stage buffer whose region begins at `base` (R53). -/
def State.viewGroup (s : State) (n base : Nat) (v : View) (r g : Nat) : List El :=
  let f := v.fmt
  let row := base + v.elem + r * v.elemPitch * 64
  let code (k : Nat) : Nat × Bool :=
    let a := row + k * fmtBits f / 8
    let c := s.readNum (.stage n) a (max 1 (fmtBits f / 8))
    (if fmtBits f = 4 then c / 16 ^ (k % 2) % 16 else c, s.marked (.stage n) a (max 1 (fmtBits f / 8)))
  if fmtG f = 0 then [plainEl f (code g).1 (code g).2]
  else
    let cs := (List.range (fmtG f)).map fun i => code (g * fmtG f + i)
    let sa := base + v.scale + r * v.scalePitch * 64 + g
    let la := base + v.side + r * v.sidePitch * 64 + 4 * fmtE f * g
    arrayGroup f (s.readNum (.stage n) sa 1) (cs.map (·.1))
      ((List.range (fmtE f)).map fun e => s.readNum (.stage n) (la + 4 * e) 4)
      (cs.any (·.2) || s.marked (.stage n) sa 1 || s.marked (.stage n) la (4 * fmtE f))

/-- Group `g` of stored row `r` of a packed view, from what its expander has expanded: rows lie back to back,
`elemPitch` elements apart. -/
def Xp.viewGroup (x : Xp) (v : View) (r g : Nat) : List El :=
  (List.range (unitG v.fmt)).map fun i =>
    (x.elems[r * v.elemPitch + g * unitG v.fmt + i - x.first]?).getD (zeroEl v.fmt)

/-- `kp` elements of stored row `r` from element `k0` (along). -/
def alongEls (grp : Nat → Nat → List El) (f r k0 kp : Nat) : List El :=
  let u := unitG f
  (((List.range ((k0 + kp - 1) / u + 1 - k0 / u)).flatMap fun i => grp r (k0 / u + i)).drop (k0 % u)).take kp

/-- Whether an element is an escape. -/
def El.isEsc (e : El) : Bool := match e.x with | .esc _ => true | _ => false

/-- Whether an element is NaN, by its code or by its side-list value (R82). -/
def El.isNan (e : El) : Bool :=
  match e.x with | .val _ => false | .esc c => decide (bits c 7 8 = 255) | .nan => true

/-- `kp` elements of stored column `c` from stored row `k0` (across, R88): for each square, its scale bytes must be
equal and its escapes at most E; otherwise it is poisoned. Where K_p ends inside a square, the rows compared and counted
are those that the pass reads, k0 to k0 + K_p − 1 (DESIGN CHOICE, log 148). -/
def acrossEls (grp : Nat → Nat → List El) (f c k0 kp : Nat) : List El :=
  let u := unitG f
  let col (r : Nat) : El := ((grp r (c / u))[c % u]?).getD (zeroEl f)
  if fmtG f = 0 then (List.range kp).map fun i => col (k0 + i)
  else
    (List.range ((k0 + kp - 1) / u + 1 - k0 / u)).flatMap fun q =>
      let rows := (List.range u).map (fun i => (k0 / u + q) * u + i) |>.filter
        fun r => decide (k0 ≤ r) && decide (r < k0 + kp)
      let gs := rows.map fun r => grp r (c / u)
      let scales := gs.map fun g => (g.headD (zeroEl f)).scale
      let escs := (gs.map fun g => (g.filter El.isEsc).length).foldl (· + ·) 0
      let bad := scales.any (fun a => a ≠ scales.headD 0) || decide (fmtE f < escs)
      gs.map fun g => let e := (g[c % u]?).getD (zeroEl f); { e with poison := e.poison || bad }

/-! Convolution (R127, R128). -/

/-- Channels per block of the layout. -/
def GenBlock.cb (g : GenBlock) : Nat := if g.c32 then 32 else 16
/-- Channel blocks. -/
def GenBlock.blocks (g : GenBlock) : Nat := (g.c + g.cb - 1) / g.cb

/-- Position `p` in an order with the extents d, h, w: (n, d, h, w). -/
def splitPos (p d h w : Nat) : Nat × Nat × Nat × Nat := (p / (w * h * d), p / (w * h) % d, p / w % h, p % w)

/-- The coordinate in the stored tensor of one dimension, for position `o` and kernel offset `t`, or padding. -/
def GenDim.coord (d : GenDim) (transpose : Bool) (o t : Nat) : Option Nat :=
  if transpose then
    let q : Int := (o : Int) + d.plo - t * d.l
    if 0 ≤ q ∧ q % d.s = 0 ∧ q / d.s < d.out then some (q / d.s).toNat else none
  else
    let i : Int := (o : Int) * d.s - d.plo + t * d.l
    if 0 ≤ i ∧ i < d.i then some i.toNat else none

/-- The extent of the stored tensor in a dimension: the input's, or in TRANSPOSE mode the output's. -/
def GenDim.extent (d : GenDim) (transpose : Bool) : Nat := if transpose then d.out.toNat else d.i

/-- The extent of the generated positions: outputs, or in TRANSPOSE mode inputs. -/
def GenDim.positions (d : GenDim) (transpose : Bool) : Nat := if transpose then d.i else d.out.toNat

/-- The stored row and element that a generator reads for position `p` and reduction index `k`, or none for padding
and for what lies past the kernel (R128). -/
def GenBlock.place (g : GenBlock) (p k : Nat) : Option (Nat × Nat) :=
  let t := g.transpose
  let per := g.blocks * g.cb
  let tap := if g.oneTap then g.tap else k / per
  let inRange := if g.oneTap then decide (k < per) else decide (tap < g.taps)
  let q := splitPos p (g.d.positions t) (g.h.positions t) (g.w.positions t)
  let kw := tap % g.w.k
  let kh := tap / g.w.k % g.h.k
  let kd := tap / (g.w.k * g.h.k)
  let cb := k / g.cb % g.blocks
  if !inRange then none
  else
    match g.d.coord t q.2.1 kd, g.h.coord t q.2.2.1 kh, g.w.coord t q.2.2.2 kw with
    | some d, some h, some w =>
      some (((q.1 * g.blocks + cb) * g.d.extent t + d) * g.h.extent t + h, w * g.cb + k % g.cb)
    | _, _, _ => none

/-- The element that a generator delivers. -/
def genEl (g : GenBlock) (grp : Nat → Nat → List El) (f p k : Nat) : El :=
  match g.place p k with
  | some (r, e) => ((grp r (e / unitG f))[e % unitG f]?).getD (zeroEl f)
  | none => zeroEl f

/-! A product's operands. -/

/-- The expander port of engine `e`: 0 activation, 1 weight load (R96). -/
def xpPort (e : Nat) (wgt : Bool) : Nat := 2 * e + b2n wgt

/-- The groups that a port reads from: its expander's for a packed view, the stage buffer's otherwise. -/
def State.groupsOf (s : State) (n e : Nat) (p : Product) (wgt : Bool) : Nat → Nat → List El :=
  let v := if wgt then p.wview else p.aview
  if v.packed then ((s.core n).xp (xpPort e wgt)).viewGroup v
  else s.viewGroup n (s.stageRegion n p.ctx).1 v

/-- The generator, when it feeds the port. -/
def Product.genAt (p : Product) (wgt : Bool) : Option GenBlock :=
  match p.gen with
  | some g => if g.wgtPort = wgt then some g else none
  | none => none

/-- `kp` elements of line `i` of a port: stored row `i` along, stored column `i` across; a generated line is a
position along, and a channel across. -/
def Product.line (p : Product) (grp : Nat → Nat → List El) (wgt : Bool) (i : Nat) : List El :=
  let f := if wgt then p.wview.fmt else p.aview.fmt
  let mir := if wgt then p.mirWgt else p.mirAct
  match p.genAt wgt with
  | some g =>
    (List.range p.kp).map fun k =>
      if mir then genEl g grp f (p.k0 + k) i else genEl g grp f i (p.k0 + k)
  | none => if mir then acrossEls grp f i p.k0 p.kp else alongEls grp f i p.k0 p.kp

/-- The elements that enter with activation row `m`. -/
def State.actEls (s : State) (n e : Nat) (p : Product) (m : Nat) : List El :=
  p.line (s.groupsOf n e p false) false (p.row0 + m)

/-- The weights of every named array: per logical column, its `kp` elements. -/
def State.wgtEls (s : State) (n e : Nat) (p : Product) : List (List (List El)) :=
  p.arrayList.map fun j => (List.range p.cols).map fun c =>
    p.line (s.groupsOf n e p true) true (p.wrow + j * p.wstep + c)

/-! The bytes that a product reads. -/

/-- The bytes of elements [k0, k0 + kp) of stored row `r`, with their scales and side lists. -/
def View.rowRanges (v : View) (r k0 kp : Nat) : List (Nat × Nat) :=
  let f := v.fmt
  let u := unitG f
  let g0 := k0 / u
  let g1 := (k0 + kp - 1) / u
  let b0 := (if fmtG f = 0 then k0 else g0 * u) * fmtBits f / 8
  let b1 := ((if fmtG f = 0 then k0 + kp else (g1 + 1) * u) * fmtBits f + 7) / 8
  [(v.elem + r * v.elemPitch * 64 + b0, b1 - b0)] ++
    (if fmtG f = 0 then [] else [(v.scale + r * v.scalePitch * 64 + g0, g1 + 1 - g0)]) ++
    (if fmtE f = 0 then [] else [(v.side + r * v.sidePitch * 64 + 4 * fmtE f * g0, 4 * fmtE f * (g1 + 1 - g0))])

/-- The lines of a port: the activation rows, or the logical columns of every named array. -/
def Product.lines (p : Product) (wgt : Bool) : List Nat :=
  if wgt then p.arrayList.flatMap fun j => (List.range p.cols).map fun c => p.wrow + j * p.wstep + c
  else (List.range p.rows).map fun m => p.row0 + m

/-- The stage ranges, in the context's numbering, that a port reads. Of a packed view only the first block's header
is known at issue (R151). -/
def Product.portRanges (p : Product) (wgt : Bool) : List (Nat × Nat) :=
  let v := if wgt then p.wview else p.aview
  let mir := if wgt then p.mirWgt else p.mirAct
  if v.packed then [(v.elem, 32)]
  else
    match p.genAt wgt with
    | some g =>
      (p.lines wgt).flatMap fun i => (List.range p.kp).flatMap fun k =>
        match (if mir then g.place (p.k0 + k) i else g.place i (p.k0 + k)) with
        | some (r, e) => v.rowRanges r e 1
        | none => []
    | none =>
      if mir then
        (List.range p.kp).flatMap fun i => (p.lines wgt).flatMap fun c => v.rowRanges (p.k0 + i) c 1
      else (p.lines wgt).flatMap fun r => v.rowRanges r p.k0 p.kp

/-- The elements of a packed stream that a port needs, counted from its first. -/
def Product.needed (p : Product) (wgt : Bool) : Nat :=
  let v := if wgt then p.wview else p.aview
  let mir := if wgt then p.mirWgt else p.mirAct
  let top := (p.lines wgt).foldl max 0
  if mir then (p.k0 + p.kp - 1) * v.elemPitch + top + 1 else top * v.elemPitch + p.k0 + p.kp

/-- The blocks of a packed stream from byte `pos`, as (start, bytes), until `needed` elements are covered, by their
headers as they stand. The first argument bounds the walk. -/
def State.packedWalk (s : State) (n base : Nat) (v : View) (needed : Nat) : Nat → Nat → Nat → List (Nat × Nat)
  | 0, _, _ => []
  | fuel + 1, pos, count =>
    if needed ≤ count then []
    else
      let h := parseHdr (s.readMem (.stage n) (base + v.elem + pos) 32)
      (v.elem + pos, 32 + h.packed) ::
        State.packedWalk s n base v needed fuel (pos + blockSize h.packed) (count + max 1 h.elements)

/-- The physical stage bytes that a product has still to read. -/
def State.productReads (s : State) (n : Nat) (p : Product) : List (Nat × Nat) :=
  let base := (s.stageRegion n p.ctx).1
  let port (wgt : Bool) : List (Nat × Nat) :=
    let v := if wgt then p.wview else p.aview
    if wgt ∧ p.phase ≠ .queued ∧ p.phase ≠ .loading then []
    else if v.packed then s.packedWalk n base v (p.needed wgt) (p.needed wgt) 0 0
    else if wgt then p.portRanges true
    else { p with row0 := p.row0 + p.row, rows := p.rows - p.row }.portRanges false
  (port false ++ port true).map fun r => (base + r.1, r.2)

end Sys2Proof.Machine
end

