-- ==== Sys2Proof/Machine/Ranges.lean ====
section
/-! DEFINITION. The scoreboard over the work in flight on a core: stage-buffer bytes and accumulator entries that earlier
work has still to read or write (R92, R111, R149, R278). -/

namespace Sys2Proof.Machine

/-- Whether an earlier product, transfer, vector or row operation has still to read any of the bytes, or to write them: a
DIN or a DRAIN that would overwrite them waits (R149). -/
def State.stageWriteWaits (s : State) (n idx : Nat) (l : List (Nat × Nat)) : Bool :=
  ((s.core n).xfers.any fun t => decide (t.idx < idx) &&
      (listsHit (s.xferStageReads n t) l || listsHit (s.xferStageWrites n t) l)) ||
    (((s.core n).fwd ++ (s.core n).bwd).any fun p => decide (p.idx < idx) && listsHit (s.productReads n p) l) ||
    ((s.core n).queuedBefore idx).any fun u => listsHit (u.foot.reads ++ u.foot.writes) l

/-- Whether an entry lies in one of some ranges of entries. -/
def inRanges (rs : List (Nat × Nat)) (e : Nat) : Bool := rs.any fun r => decide (r.1 ≤ e) && decide (e < r.1 + r.2)

/-- Whether a product in flight will still write any of the physical accumulator entries, or a queued vector or row
operation (R92, R111). -/
def State.accBusy (s : State) (n idx : Nat) (l : List Nat) : Bool :=
  (((s.core n).fwd ++ (s.core n).bwd).any fun p =>
    decide (p.idx < idx) && p.entries.any fun e => l.contains ((s.accRegion n p.ctx).1 + e)) ||
    ((s.core n).queuedBefore idx).any fun u => l.any (inRanges u.foot.accWrites)

/-- The physical accumulator entries that a DRAIN reads (R185). -/
def Xfer.drainEntries (t : Xfer) : List Nat :=
  let base := t.abase + bits t.slot.toNat 26 19
  (List.range (t.desc.tileRows * t.desc.tileCols)).map fun i => base + i

/-- Whether an earlier DRAIN has still to convert any of the physical entries, or a queued operation to read them: a write
to them waits (R111). -/
def State.accHeld (s : State) (n idx : Nat) (l : List Nat) : Bool :=
  ((s.core n).xfers.any fun t =>
    t.kind = .drain && decide (t.idx < idx) && !t.converted &&
      t.drainEntries.any fun e => l.contains e) ||
    ((s.core n).queuedBefore idx).any fun u => l.any (inRanges (u.foot.accReads ++ u.foot.accWrites))

/-- Whether any of the physical entries lies in the region of a descriptor that the Carousel holds: a write to it
waits (R278). -/
def State.regionHeld (s : State) (n : Nat) (l : List Nat) : Bool :=
  (s.core n).acdHeld.any fun k =>
    let w := s.reg (Reg.mxAcd0 n k)
    let base := (s.accRegion n 0).1 + bits w 0 19
    l.any fun e => decide (base ≤ e) && decide (e < base + bits w 20 20)

end Sys2Proof.Machine
end

