-- ==== Sys2Proof/Machine/CopyQueue.lean ====
section
/-! DEFINITION. Copy queues (R237 to R240): sending a message, storing it at its receiving end with the duplicate
check of R239, receiving it by a DIN, and freeing it (R342). -/

namespace Sys2Proof.Machine

/-! Ends. -/

/-- KIND of a copy queue: 0 host to device, 1 device to host, 2 device to device (Table 8.11). -/
def State.copyKind (s : State) (q : Nat) : Nat := s.fld (Reg.qmQPeer q) Fld.qmQPeerKind

/-- Whether queue `q` takes further work: it is RUNNING and no control is in progress (Table 8.14: a STOP lets the message
in hand complete, and no further one is sent, stored or handed to a DIN). -/
def State.qTaking (s : State) (q : Nat) : Bool := s.qRunning q && (s.queue q).control = none

/-- Whether `q` is a created copy queue. -/
def State.isCopy (s : State) (q : Nat) : Bool := s.qCreated q && s.qType q = 4

/-- Whether DINs consume from queue `q` (R182). -/
def State.dinEnd (s : State) (q : Nat) : Bool :=
  s.isCopy q && (s.copyKind q = 0 || (s.copyKind q = 2 && !s.flag (Reg.qmQPeer q) Fld.qmQPeerSender))

/-- Whether DOUTs produce into queue `q` (R182). -/
def State.doutEnd (s : State) (q : Nat) : Bool :=
  s.isCopy q && (s.copyKind q = 1 || (s.copyKind q = 2 && s.flag (Reg.qmQPeer q) Fld.qmQPeerSender))

/-- The peer's queue ID. -/
def State.peerQueue (s : State) (q : Nat) : Nat := s.fld (Reg.qmQPeer q) Fld.qmQPeerQueue
/-- The peer's coordinate. -/
def State.peerCoord (s : State) (q : Nat) : Nat := s.fld (Reg.qmQPeer q) Fld.qmQPeerCoord

/-- The data area's size in bytes. -/
def State.dataSize (s : State) (q : Nat) : Nat := s.fld (Reg.qmQDataSize q) Fld.qmQDataSizeKib * 1024

/-- The queue whose ring receives the messages of sending end `q`, when it is on this module: `q` itself for a
device-to-host queue. -/
def State.ringEnd (s : State) (q : Nat) : Option Nat :=
  if s.copyKind q = 1 then some q
  else if s.peerCoord q = s.selfLogical then some (s.peerQueue q) else none

/-- Whether a DOUT of `len` bytes into `q` is known at issue to exceed the data area (R240). -/
def State.knownOversize (s : State) (q len : Nat) : Bool :=
  match s.ringEnd q with
  | some r => (s.copyKind q = 1 || s.dinEnd r) && decide (s.dataSize r < roundUp len 64)
  | none => false

/-- The checks of a copy-queue transfer at issue (R182, R240): the faults they find. -/
def State.queueFaults (s : State) (act q len : Nat) (din : Bool) : List Nat :=
  if !s.ownsQueue act q then [0x03]
  else if din then (if s.dinEnd q then [] else [0x02])
  else if s.doutEnd q && !s.knownOversize q len then [] else [0x02]

/-! Sending. -/

/-- The frames of a message for another module (Table 11.7). The first argument bounds their number. -/
def State.copyFrames (s : State) (q dst srcOffset seq total : Nat) : Nat → Nat → Bytes → List Frame
  | 0, _, _ => []
  | n + 1, off, bs =>
    let part := bs.take 4096
    let ext := leBytes 2 (s.peerQueue q) ++ leBytes 2 q ++ leBytes 4 srcOffset ++ leBytes 4 seq ++ leBytes 4 total ++
      leBytes 4 off ++ List.replicate 12 0
    let f := s.newFrame dst 2 0 ext part
    if bs.length ≤ 4096 then [f] else f :: s.copyFrames q dst srcOffset seq total n (off + 4096) (bs.drop 4096)

/-- Sends a message from sending end `q`, which is RUNNING: towards the ring of this module, or in COPY frames
(R238, R321). -/
def State.sendCopy (s : State) (q srcOffset : Nat) (data : Bytes) (marks : List (Nat × Nat)) : State :=
  let seq := (s.queue q).sendSeq
  let s := s.modQueue q fun k => { k with sendSeq := (k.sendSeq + 1) % 2 ^ 32 }
  match s.ringEnd q with
  | some r =>
    let m : CopyMsg :=
      { srcQueue := q, srcCoord := s.selfLogical, srcOffset := srcOffset, msgSeq := seq, length := data.length,
        data := data, marks := marks, oversize := false }
    s.modQueue r fun k => { k with arriving := k.arriving ++ [m] }
  | none =>
    s.each (s.copyFrames q (s.physOf (s.peerCoord q)) srcOffset seq data.length (data.length / 4096 + 1) 0 data) fun f s =>
      s.sendHeld f

/-- Whether a message that `q` sent with a stream offset is still on its way: not yet stored here, or not
acknowledged by another module (R236, R324). -/
def State.copyPending (s : State) (q srcOffset : Nat) : Bool :=
  (match s.ringEnd q with
    | some r => (s.queue r).arriving.any fun m => m.srcQueue = q && m.srcOffset = srcOffset
    | none => false) ||
    s.heldFrames.any fun h =>
      h.frame.typ.toNat = 2 && fieldAt h.frame.ext 2 2 = q && fieldAt h.frame.ext 4 4 = srcOffset

/-! Storing. -/

/-- Where a payload of `len` bytes goes in the data area: the next free 64-byte-aligned offset, or the area's base
when it would pass the end (R238). -/
def State.dataPlace (s : State) (q len : Nat) : Nat :=
  let o := (s.queue q).dataHead
  if o + roundUp len 64 ≤ s.dataSize q then o else 0

/-- The payloads that the data area still holds. On a device-to-host queue the host has freed those below its
consumer count. -/
def State.heldData (s : State) (q : Nat) : List HeldMsg :=
  (s.queue q).held.filter fun h => s.copyKind q ≠ 1 || decide ((h.count + 2 ^ 32 - s.qCons q) % 2 ^ 32 < s.qUsed q)

/-- Whether ring and data area have room for a payload (R238). -/
def State.copyRoom (s : State) (q len : Nat) : Bool :=
  let o := s.dataPlace q len
  decide (s.qUsed q < s.qSize q) && (s.heldData q).all fun h => !rangesHit (o, roundUp len 64) (h.at_, h.size)

/-- The 48 request bytes of a message entry (Table 8.6). -/
def copyEntry (data space : Nat) (m : CopyMsg) : Bytes :=
  leBytes 8 data ++ leBytes 4 m.length ++ leBytes 4 m.srcOffset ++ leBytes 2 m.srcQueue ++ leBytes 2 m.srcCoord ++
    leBytes 1 (b2n m.oversize + space * 2) ++ List.replicate 27 0

/-- Writes a message's entry and advances the producer count. -/
def State.putEntry (s : State) (q data : Nat) (m : CopyMsg) (at_ size : Nat) : State :=
  let p := s.qProd q
  let held := s.heldData q
  let s := s.writeMem (s.qSpace q) (s.qSlot q p) (copyEntry data (s.fld (Reg.qmQCfg q) Fld.qmQCfgSpace) m)
  let s := s.modQueue q fun k =>
    { k with lastSrc := some m.srcOffset, recvSeq := some ((m.msgSeq + 1) % 2 ^ 32),
             held := held ++ [{ count := p, at_ := at_, size := size, consumed := none, consumer := none, released := false }] }
  s.setProd q (p + 1)

/-- Acknowledges a message that came from another module (R324). -/
def State.ackCopy (s : State) (q : Nat) (m : CopyMsg) : State :=
  if m.srcCoord = s.selfLogical then s else s.sendAck (s.physOf m.srcCoord) (copyAck q m.msgSeq)

/-- Whether a message repeats one that the end has accepted since its last RESET (R239). -/
def State.copyDuplicate (s : State) (q : Nat) (m : CopyMsg) : Bool :=
  match (s.queue q).lastSrc with
  | some o => serialLe m.srcOffset o
  | none => false

/-- Whether a copy queue's end takes a message from its sender: on a device-to-host queue the queue itself, otherwise the end
that Q_PEER names, of the same act when it is on this module (R237, R322). -/
def State.namesSender (s : State) (q : Nat) (m : CopyMsg) : Bool :=
  if s.copyKind q = 1 then m.srcQueue = q
  else s.dinEnd q && s.copyKind q = 2 && s.peerQueue q = m.srcQueue && s.peerCoord q = m.srcCoord &&
    (m.srcCoord ≠ s.selfLogical || s.queueAct q = s.queueAct m.srcQueue)

/-- Whether a message is the next of its sender: those of another module enter in MSG_SEQ order (R321). After a RESET the end
takes up the order from the first message that has arrived (DESIGN CHOICE, log 157). -/
def State.inOrder (s : State) (q : Nat) (m : CopyMsg) : Bool :=
  m.srcCoord = s.selfLogical || (match (s.queue q).recvSeq with | some n => m.msgSeq = n | none => true)

/-- The oldest message that waits at a running receiving end is stored, discarded as a duplicate, or entered as
oversize; without room it goes on waiting (R238 to R240). Whether it is oversize is judged by the data area that the end
has now. -/
def State.copyArrive (s : State) (q : Nat) : State :=
  match (s.queue q).arriving with
  | m :: rest =>
    if !s.isCopy q || !s.qTaking q || !s.namesSender q m || !s.inOrder q m then s
    else
      let m := { m with oversize := decide (s.dataSize q < roundUp m.length 64) }
      let t := s.modQueue q fun k => { k with arriving := rest }
      if s.copyDuplicate q m then t.ackCopy q m
      else if m.oversize then
        if s.qUsed q < s.qSize q then
          let t := t.putEntry q 0 m 0 0
          (t.queueEvent ((t.queueAct q).getD 0) q (openSeverity 0x0E 0x02) 0x02 (t.qState q) (t.qState q)).ackCopy q m
        else s
      else if s.copyRoom q m.length then
        let o := s.dataPlace q m.length
        let a := s.reg (Reg.qmQData q) + o
        let size := roundUp m.length 64
        let t := t.writeMem (t.qSpace q) a m.data
        let t := t.each m.marks fun r t => t.markMem (t.qSpace q) (a + r.1) r.2
        let t := t.modQueue q fun k => { k with dataHead := o + size }
        (t.putEntry q a m o size).ackCopy q m
      else s
  | [] => s

/-- COPY_MESSAGE_ARRIVE. -/
def execCopyMessageArrive (q : Nat) (s : State) : Host.Outcome State Fault Refusal :=
  whenUnits s (okQueue q) (s.copyArrive q)

/-! Frames. -/

/-- The bytes of a message whose every byte has come, from its parts by offset. -/
def assembled (total : Nat) (parts : List (Nat × Bytes)) : Option Bytes :=
  let bs := parts.foldl (fun (m : List (Nat × Byte)) p =>
    (indexed p.1 p.2).foldl (fun m c => Sparse.put m c.1 c.2) m) []
  if bs.length = total ∧ bs.all fun c => decide (c.1 < total) then some (bs.map (·.2)) else none

/-- A COPY frame at a receiving end that accepts it: its part is placed, and a whole message joins those that
arrive, in MSG_SEQ order. A part of a message already stored is acknowledged again (R321, R324). -/
def State.copyPart (s : State) (q : Nat) (f : Frame) : State :=
  let seq := fieldAt f.ext 8 4
  let total := fieldAt f.ext 12 4
  let k := s.queue q
  let stored := match k.recvSeq with | some n => !serialLe n seq | none => false
  if stored then s.sendAck f.src.toNat (copyAck q seq)
  else if k.arriving.any fun m => m.msgSeq = seq then s
  else
    let old := ((k.partials.find? fun p => p.1 = seq).map (·.2)).getD []
    let parts := old.filter (fun p => p.1 ≠ fieldAt f.ext 16 4) ++ [(fieldAt f.ext 16 4, f.payload)]
    let others := k.partials.filter fun p => p.1 ≠ seq
    match assembled total parts with
    | none => s.modQueue q fun k => { k with partials := others ++ [(seq, parts)] }
    | some bs =>
      let m : CopyMsg :=
        { srcQueue := fieldAt f.ext 2 2, srcCoord := (s.logicalOf f.src.toNat).getD 0, srcOffset := fieldAt f.ext 4 4,
          msgSeq := seq, length := total, data := bs, marks := [], oversize := false }
      s.modQueue q fun k =>
        { k with partials := others,
                 arriving := k.arriving.takeWhile (fun a => serialLe a.msgSeq seq) ++ [m] ++
                   k.arriving.dropWhile fun a => serialLe a.msgSeq seq }

/-- A COPY frame is accepted only by a created receiving end whose Q_PEER names its logical source and SRC_QUEUE
(R322); while the end is not RUNNING, or a STOP is in progress, it is not acknowledged (Table 8.14). -/
def State.copyFrame (s : State) (p : Nat) (f : Frame) : State :=
  let q := fieldAt f.ext 0 2
  s.onlyIf p (s.dinEnd q && s.copyKind q = 2 && s.logicalOf f.src.toNat = some (s.peerCoord q) &&
      s.peerQueue q = fieldAt f.ext 2 2) fun s => if s.qTaking q then s.copyPart q f else s

/-- COPY. -/
def execCopy (p : Nat) (f : Frame) (s : State) : Host.Outcome State Fault Refusal :=
  whenUnits s (okPort p) (s.arrive p f 2 fun s => s.copyFrame p f)

/-! Receiving and freeing. -/

/-- Messages of queue `q` that DINs have consumed and that are not yet freed. -/
def State.consumed (s : State) (q : Nat) : Nat := ((s.queue q).held.filter fun h => h.consumed.isSome).length

/-- The count of the next message for a DIN: the first that none has consumed (R239). -/
def State.nextMsg (s : State) (q : Nat) : Nat :=
  let taken (c : Nat) : Bool := (s.queue q).held.any fun h => h.count = c && h.consumed.isSome
  ((((List.range (s.consumed q + 1)).map fun i => (s.qCons q + i) % 2 ^ 32).find? fun c => !taken c).getD 0)

/-- Whether a running receiving end has a message for a DIN. -/
def State.msgReady (s : State) (q : Nat) : Bool :=
  s.dinEnd q && s.qTaking q && decide (s.consumed q < s.qUsed q)

/-- Records that a DIN of a stream has consumed the next message with a status. A DIN whose stream has left its core takes
nothing from the queue: the re-issued DIN reads the message again (R338, R342). -/
def State.consume (s : State) (n x q status : Nat) : State :=
  match (s.ctx n x).queue with
  | none => s
  | some by_ =>
    let c := s.nextMsg q
    let s := s.modCtx n x fun k =>
      { k with copyCons := if k.copyCons.any fun p => p.1 = q then k.copyCons else k.copyCons ++ [(q, c)] }
    s.modQueue q fun k =>
      { k with held := if k.held.any fun h => h.count = c then
          k.held.map fun h => if h.count = c then { h with consumed := some status, consumer := some by_ } else h
        else k.held ++ [{ count := c, at_ := 0, size := 0, consumed := some status, consumer := some by_, released := false }] }

/-- The held message at the consumer count: the one to be freed next. -/
def State.headMsg (s : State) (q : Nat) : Option HeldMsg := (s.queue q).held.find? fun h => h.count = s.qCons q

/-- Frees the oldest message of a queue, if its stream has let it go: its ring entry and data space, with the completion on
a host-to-device queue (R239, R342). -/
def State.freeOne (s : State) (q : Nat) : State :=
  match s.headMsg q with
  | some h =>
    match h.released, h.consumed with
    | true, some st =>
      let s := s.modQueue q fun k => { k with held := k.held.filter fun m => m.count ≠ h.count }
      if s.copyKind q = 0 then s.complete q h.count st false
      else s.setFld (Reg.qmQPtr q) Fld.qmQPtrConsumer (h.count + 1)
    | _, _ => s
  | none => s

/-- Lets go of every message that the stream of a context has consumed, and frees those before which none is held (R239,
R342). -/
def State.freeCopies (s : State) (n x : Nat) : State :=
  let c := s.ctx n x
  let s := s.each c.copyCons fun p s =>
    let s := s.modQueue p.1 fun k =>
      { k with held := k.held.map fun h => if h.consumed.isSome ∧ h.consumer = c.queue then { h with released := true } else h }
    s.each (List.range (s.consumed p.1)) fun _ s => s.freeOne p.1
  s.modCtx n x fun k => { k with copyCons := [] }

end Sys2Proof.Machine
end

