-- ==== Sys2Proof/Machine/Ctrl.lean ====
section
/-! DEFINITION. The CTRL slot (R140 to R147, R163) and the bundles' own steps: EMPTY_BUNDLE, NOP,
BUNDLE_RETIRE, NOTIFY (R133, R134, R138), STREAM_FETCH_DONE (R142) and LIBRARY_RETURN (R163). -/

namespace Sys2Proof.Machine

/-! Scalar operations. -/

/-- Fields SD, SA and SB of an arithmetic CTRL slot. -/
def ctrlSd (w : Nat) : Nat := bits w 48 5
/-- SA [47:43]. -/
def ctrlSa (w : Nat) : Nat := bits w 43 5
/-- SB [42:38]. -/
def ctrlSb (w : Nat) : Nat := bits w 38 5

/-- IMM32, sign-extended to 64 bits (R140). -/
def ctrlImm (w : Nat) : Nat := ofSigned 64 (toSigned 32 (bits w 0 32))

/-- SD := SA op SB on 64-bit words (Table 5.4). -/
def State.scalarOp (f : Nat → Nat → Nat) (n x : Nat) (b : OpenBundle) (w : Nat) (s : State) : State :=
  s.setSreg n x (ctrlSd w) (f (b.sreg (ctrlSa w)) (b.sreg (ctrlSb w)) % 2 ^ 64)

/-- A signed comparison under COND (R141). -/
def condHolds (cond : Nat) (a b : Int) : Bool :=
  match cond with
  | 0 => decide (a = b) | 1 => decide (a ≠ b) | 2 => decide (a < b)
  | 3 => decide (b ≤ a) | 4 => decide (a ≤ b) | _ => decide (b < a)

/-- A quiet binary32 comparison under COND: an unordered pair gives 0, but 1 for NE (R141). -/
def fcondHolds (cond a b : Nat) : Bool :=
  match F32.cmp a b with
  | none => cond = 1
  | some (lt, eq) =>
    match cond with
    | 0 => eq | 1 => !eq | 2 => lt | 3 => !lt | 4 => lt || eq | _ => !(lt || eq)

/-- PD := SA cond SB (Table 5.4). -/
def State.compareOp (f : Nat → Nat → Nat → Bool) (n x : Nat) (b : OpenBundle) (w : Nat) (s : State) : State :=
  s.setPred n x (bits w 50 3) (f (bits w 47 3) (b.sreg (bits w 42 5)) (b.sreg (bits w 37 5)))

/-- PD := PA op PB (Table 5.4). -/
def State.predOp (f : Bool → Bool → Bool) (n x : Nat) (b : OpenBundle) (w : Nat) (s : State) : State :=
  s.setPred n x (bits w 50 3) (f (b.preds.getLsbD (bits w 47 3)) (b.preds.getLsbD (bits w 44 3)))

/-- SSRA on 64-bit words. -/
def sra64 (a k : Nat) : Nat := ofSigned 64 (toSigned 64 a / ((2 ^ (k % 64) : Nat) : Int))

/-- The signed minimum or maximum of 64-bit words. -/
def smin64 (a b : Nat) : Nat := if toSigned 64 a ≤ toSigned 64 b then a else b
/-- The signed maximum. -/
def smax64 (a b : Nat) : Nat := if toSigned 64 a ≤ toSigned 64 b then b else a

/-! Control flow. -/

/-- A taken branch: OFF counts words from the branching bundle's first word; a target that R142 forbids is a
fault at issue. -/
def State.takeBranch (n x : Nat) (b : OpenBundle) (w : Nat) (s : State) : State :=
  let t : Int := (b.word : Int) + toSigned 24 (bits w 0 24)
  if 0 ≤ t ∧ s.targetOk (s.ctx n x) t.toNat then s.setCtl n x (.jump t.toNat)
  else s.slotFault n x b 0 0x02

/-- BRS (Table 5.4). -/
def State.branchIf (n x : Nat) (b : OpenBundle) (w : Nat) (s : State) : State :=
  if condHolds (bits w 45 3) (toSigned 64 (b.sreg (bits w 48 5))) 0 then s.takeBranch n x b w else s

/-- LOOP: latches SA[31:0], or faults at issue on a body that R144 forbids. -/
def State.enterLoop (n x : Nat) (b : OpenBundle) (w : Nat) (s : State) : State :=
  let c := s.ctx n x
  let first := b.word + b.length
  let last := b.word + bits w 0 24
  let st := s.bundleStarts c c.words 0
  let bad := decide (4 ≤ c.loops.length) || !(st.any fun p => p.1 = last) || decide (last < first) ||
    decide (c.words < last + hdrLength (s.streamWord c last)) ||
    (match c.loops.head? with | some l => decide (l.last < last) | none => false)
  if bad then s.slotFault n x b 0 0x02
  else s.setCtl n x (.enter (bits (b.sreg (bits w 48 5)) 0 32) first last)

/-- BREAKIF whose guard passes: the innermost loop is left at retirement (R145). -/
def State.breakLoop (n x : Nat) (b : OpenBundle) (s : State) : State :=
  if (s.ctx n x).loops = [] then s.slotFault n x b 0 0x02 else s.setCtl n x .leave

/-- SLC: the iteration index of the loop at DEPTH, 0 when fewer loops are open (Table 5.4). -/
def State.loopIndex (n x : Nat) (w : Nat) (s : State) : State :=
  s.setSreg n x (bits w 48 5)
    (match (s.ctx n x).loops[bits w 46 2]? with | some l => l.index | none => 0)

/-- ACD: declares accumulation descriptor N, unless R146 makes it a fault at issue. R208 gives a sideshow's context no
descriptors of its own: there it declares in the core's one set (DESIGN CHOICE, log 159). -/
def State.declareAcd (n x : Nat) (b : OpenBundle) (w : Nat) (s : State) : State :=
  let k := bits w 47 6
  let a := b.sreg (bits w 42 5)
  let u := b.sreg (bits w 37 5)
  let base := bits a 0 19
  let entries := bits a 20 20
  let uses := bits u 0 16
  let old := bits (s.reg (Reg.mxAcd0 n k)) 48 16
  if (old ≠ 0 ∧ !bit (s.reg (Reg.mxAcd1 n k)) 16) ∨ uses = 0 ∨ entries = 0 ∨ 524288 < base + entries then
    s.slotFault n x b 0 0x02
  else
    (s.setReg (Reg.mxAcd0 n k) (base + entries * 2 ^ 20 + uses * 2 ^ 48)).setReg (Reg.mxAcd1 n k)
      (bits u 16 32 * 2 ^ 32)

/-- The context that the library table names for a function: TEST for the self-tests of Table 13.6 (R163), its own for an
extension (R382); none for a function that is not in the table. -/
def State.libContext (s : State) (fn : Nat) : Option Nat :=
  if fn = 1 ∨ fn = 2 ∨ fn = 3 then some 2 else (s.trust.library.find? fun p => p.1 = fn).map (·.2)

/-- CALLLIB: calls the function with its argument and suspends the stream until it returns; an FN not in the table is a
fault at issue (R163). -/
def State.callLibrary (n x : Nat) (b : OpenBundle) (w : Nat) (s : State) : State :=
  let fn := bits w 0 16
  match s.libContext fn with
  | some k =>
    s.modCtx n x fun c => { c with lib := some { fn := fn, arg := BitVec.ofNat 64 (b.sreg (bits w 48 5)), context := k } }
  | none => s.slotFault n x b 0 0x02

/-- A CTRL operation in the shared slot form. -/
def State.ctrl (s : State) (n x op : Nat) (eff : OpenBundle → Nat → State → State) : State :=
  s.onSlot n x 0 op always eff

/-! Meanings. -/

/-- SADD. -/
def execSadd (core ctx : Nat) (s : State) : Host.Outcome State Fault Refusal :=
  whenUnits s (okCore core && okCtx ctx) (s.ctrl core ctx 0x01 (State.scalarOp (· + ·) core ctx))
/-- SSUB. -/
def execSsub (core ctx : Nat) (s : State) : Host.Outcome State Fault Refusal :=
  whenUnits s (okCore core && okCtx ctx) (s.ctrl core ctx 0x02 (State.scalarOp (fun a b => a + 2 ^ 64 - b) core ctx))
/-- SMUL keeps the low 64 bits. -/
def execSmul (core ctx : Nat) (s : State) : Host.Outcome State Fault Refusal :=
  whenUnits s (okCore core && okCtx ctx) (s.ctrl core ctx 0x03 (State.scalarOp (· * ·) core ctx))
/-- SAND. -/
def execSand (core ctx : Nat) (s : State) : Host.Outcome State Fault Refusal :=
  whenUnits s (okCore core && okCtx ctx) (s.ctrl core ctx 0x04 (State.scalarOp (· &&& ·) core ctx))
/-- SOR. -/
def execSor (core ctx : Nat) (s : State) : Host.Outcome State Fault Refusal :=
  whenUnits s (okCore core && okCtx ctx) (s.ctrl core ctx 0x05 (State.scalarOp (· ||| ·) core ctx))
/-- SXOR. -/
def execSxor (core ctx : Nat) (s : State) : Host.Outcome State Fault Refusal :=
  whenUnits s (okCore core && okCtx ctx) (s.ctrl core ctx 0x06 (State.scalarOp (· ^^^ ·) core ctx))
/-- SSHL by SB[5:0]. -/
def execSshl (core ctx : Nat) (s : State) : Host.Outcome State Fault Refusal :=
  whenUnits s (okCore core && okCtx ctx) (s.ctrl core ctx 0x07 (State.scalarOp (fun a b => a <<< (b % 64)) core ctx))
/-- SSHR by SB[5:0]. -/
def execSshr (core ctx : Nat) (s : State) : Host.Outcome State Fault Refusal :=
  whenUnits s (okCore core && okCtx ctx) (s.ctrl core ctx 0x08 (State.scalarOp (fun a b => a >>> (b % 64)) core ctx))
/-- SSRA by SB[5:0]. -/
def execSsra (core ctx : Nat) (s : State) : Host.Outcome State Fault Refusal :=
  whenUnits s (okCore core && okCtx ctx) (s.ctrl core ctx 0x09 (State.scalarOp sra64 core ctx))
/-- SMIN, signed. -/
def execSmin (core ctx : Nat) (s : State) : Host.Outcome State Fault Refusal :=
  whenUnits s (okCore core && okCtx ctx) (s.ctrl core ctx 0x0A (State.scalarOp smin64 core ctx))
/-- SMAX, signed. -/
def execSmax (core ctx : Nat) (s : State) : Host.Outcome State Fault Refusal :=
  whenUnits s (okCore core && okCtx ctx) (s.ctrl core ctx 0x0B (State.scalarOp smax64 core ctx))
/-- SLI: SD := IMM32, sign-extended. -/
def execSli (core ctx : Nat) (s : State) : Host.Outcome State Fault Refusal :=
  whenUnits s (okCore core && okCtx ctx) (s.ctrl core ctx 0x10 fun _ w s => s.setSreg core ctx (ctrlSd w) (ctrlImm w))
/-- SLIH: SD[63:32] := IMM32, low half kept. -/
def execSlih (core ctx : Nat) (s : State) : Host.Outcome State Fault Refusal :=
  whenUnits s (okCore core && okCtx ctx) (s.ctrl core ctx 0x11 fun b w s =>
    s.setSreg core ctx (ctrlSd w) (b.sreg (ctrlSd w) % 2 ^ 32 + bits w 0 32 * 2 ^ 32))
/-- SADDI: SD := SA + IMM32. -/
def execSaddi (core ctx : Nat) (s : State) : Host.Outcome State Fault Refusal :=
  whenUnits s (okCore core && okCtx ctx) (s.ctrl core ctx 0x12 fun b w s =>
    s.setSreg core ctx (ctrlSd w) ((b.sreg (ctrlSa w) + ctrlImm w) % 2 ^ 64))
/-- SCMP, signed 64-bit. -/
def execScmp (core ctx : Nat) (s : State) : Host.Outcome State Fault Refusal :=
  whenUnits s (okCore core && okCtx ctx) (s.ctrl core ctx 0x14
    (State.compareOp (fun c a b => condHolds c (toSigned 64 a) (toSigned 64 b)) core ctx))
/-- SFCMP, binary32 in the low words. -/
def execSfcmp (core ctx : Nat) (s : State) : Host.Outcome State Fault Refusal :=
  whenUnits s (okCore core && okCtx ctx) (s.ctrl core ctx 0x15
    (State.compareOp (fun c a b => fcondHolds c (bits a 0 32) (bits b 0 32)) core ctx))
/-- PAND. -/
def execPand (core ctx : Nat) (s : State) : Host.Outcome State Fault Refusal :=
  whenUnits s (okCore core && okCtx ctx) (s.ctrl core ctx 0x18 (State.predOp (· && ·) core ctx))
/-- POR. -/
def execPor (core ctx : Nat) (s : State) : Host.Outcome State Fault Refusal :=
  whenUnits s (okCore core && okCtx ctx) (s.ctrl core ctx 0x19 (State.predOp (· || ·) core ctx))
/-- PXOR. -/
def execPxor (core ctx : Nat) (s : State) : Host.Outcome State Fault Refusal :=
  whenUnits s (okCore core && okCtx ctx) (s.ctrl core ctx 0x1A (State.predOp (· != ·) core ctx))
/-- PNOT ignores PB. -/
def execPnot (core ctx : Nat) (s : State) : Host.Outcome State Fault Refusal :=
  whenUnits s (okCore core && okCtx ctx) (s.ctrl core ctx 0x1B (State.predOp (fun a _ => !a) core ctx))
/-- BR. -/
def execBr (core ctx : Nat) (s : State) : Host.Outcome State Fault Refusal :=
  whenUnits s (okCore core && okCtx ctx) (s.ctrl core ctx 0x20 (State.takeBranch core ctx))
/-- BRS. -/
def execBrs (core ctx : Nat) (s : State) : Host.Outcome State Fault Refusal :=
  whenUnits s (okCore core && okCtx ctx) (s.ctrl core ctx 0x21 (State.branchIf core ctx))
/-- LOOP. -/
def execLoop (core ctx : Nat) (s : State) : Host.Outcome State Fault Refusal :=
  whenUnits s (okCore core && okCtx ctx) (s.ctrl core ctx 0x24 (State.enterLoop core ctx))
/-- BREAKIF. -/
def execBreakif (core ctx : Nat) (s : State) : Host.Outcome State Fault Refusal :=
  whenUnits s (okCore core && okCtx ctx) (s.ctrl core ctx 0x25 fun b _ => State.breakLoop core ctx b)
/-- SLC. -/
def execSlc (core ctx : Nat) (s : State) : Host.Outcome State Fault Refusal :=
  whenUnits s (okCore core && okCtx ctx) (s.ctrl core ctx 0x26 fun _ w => State.loopIndex core ctx w)
/-- ACD: it waits while the Carousel holds its descriptor (R278). -/
def execAcd (core ctx : Nat) (s : State) : Host.Outcome State Fault Refusal :=
  whenUnits s (okCore core && okCtx ctx) 
    (s.onSlot core ctx 0 0x28 (fun s _ w => !(s.core core).acdHeld.contains (bits w 47 6)) (State.declareAcd core ctx))
/-- SSTEP: the working step number := SA[31:0] (R147). -/
def execSstep (core ctx : Nat) (s : State) : Host.Outcome State Fault Refusal :=
  whenUnits s (okCore core && okCtx ctx) (s.ctrl core ctx 0x29 fun b w s =>
    s.modCtx core ctx fun c => { c with step := bits (b.sreg (ctrlSa w)) 0 32 })
/-- CALLLIB. -/
def execCalllib (core ctx : Nat) (s : State) : Host.Outcome State Fault Refusal :=
  whenUnits s (okCore core && okCtx ctx) (s.ctrl core ctx 0x30 (State.callLibrary core ctx))

/-- A library function that returns: its results stand in s1 to s3 and the stream resumes (R163). -/
def State.libraryReturn (s : State) (n x : Nat) (a b c : Word64) : State :=
  if (s.ctx n x).lib.isSome then
    (((s.setSreg n x 1 a.toNat).setSreg n x 2 b.toNat).setSreg n x 3 c.toNat).modCtx n x
      fun k => { k with lib := none }
  else s

/-- LIBRARY_RETURN. -/
def execLibraryReturn (core ctx : Nat) (s1 s2 s3 : Word64) (s : State) : Host.Outcome State Fault Refusal :=
  whenUnits s (okCore core && okCtx ctx) (s.libraryReturn core ctx s1 s2 s3)

/-- EMPTY_BUNDLE: issues the next bundle when none is open and its PRESENT is zero; it acts through its flags
alone (R134). -/
def State.emptyBundle (s : State) (n x : Nat) : State :=
  if (s.ctx n x).cur.isSome then s
  else match s.openNext n x with
    | (t, none) => t
    | (t, some b) => if b.todo = [] then t else s

/-- EMPTY_BUNDLE. -/
def execEmptyBundle (core ctx : Nat) (s : State) : Host.Outcome State Fault Refusal :=
  whenUnits s (okCore core && okCtx ctx) (s.emptyBundle core ctx)

/-- NOP: opcode 0x00 of any slot does nothing (R138). -/
def execNop (core ctx slot : Nat) (s : State) : Host.Outcome State Fault Refusal :=
  whenUnits s (okCore core && okCtx ctx && okPort slot) (s.onSlot core ctx slot 0 always fun _ _ s => s)

/-- BUNDLE_RETIRE: the open bundle retires once all its slots have run and no library function holds the
stream (R133, R163). -/
def State.retireOpen (s : State) (n x : Nat) : State :=
  match (s.ctx n x).cur with
  | some b => if b.todo = [] ∧ (s.ctx n x).lib = none then s.retire n x b else s
  | none => s

/-- BUNDLE_RETIRE. -/
def execBundleRetire (core ctx : Nat) (s : State) : Host.Outcome State Fault Refusal :=
  whenUnits s (okCore core && okCtx ctx) (s.retireOpen core ctx)

/-- Whether every effect of the bundle with offset `off`, and of those before it, is complete. -/
def State.bundleDone (s : State) (n x off : Nat) : Bool :=
  let c := s.ctx n x
  (match c.cur with | some b => b.off ≠ off | none => true) &&
    ((s.ctxXfers n x).all fun t => !serialLe t.off off) &&
    ((s.ctxProducts n x).all fun t => !serialLe t.off off) && ((s.ctxOps n x).all fun u => !serialLe u.b.off off) &&
    (c.sigs.all fun t => !serialLe t.off off) &&
    (match c.wait with | some w => !serialLe w.off off | none => true) && c.cueWait.isNone &&
    (match c.bucketWait with | some w => !serialLe w.off off | none => true) && c.lib.isNone &&
    !(x = 0 && (s.core n).sort.running.isSome)

/-- NOTIFY: when every effect of the oldest NOTIFY bundle is complete, its event is written, with the stream
offset in bytes 24–27 (R133, Table 8.9). -/
def State.notifyDone (s : State) (n x : Nat) : State :=
  match (s.ctx n x).notifies with
  | (off, tag) :: rest =>
    if s.bundleDone n x off then
      (s.modCtx n x fun c => { c with notifies := rest }).ctxEvent n x 0x02 0 off tag (leBytes 4 off)
    else s
  | [] => s

/-- NOTIFY. -/
def execNotify (core ctx : Nat) (s : State) : Host.Outcome State Fault Refusal :=
  whenUnits s (okCore core && okCtx ctx) (s.notifyDone core ctx)

/-- STREAM_FETCH_DONE: the words of a branch target arrive in the bundle buffer and issue resumes (R142). -/
def State.streamFetched (s : State) (n x : Nat) : State :=
  if (s.ctx n x).state = .waitFetch then
    s.modCtx n x fun c => { c with state := .issuing, fetched := c.word }
  else s

/-- STREAM_FETCH_DONE. -/
def execStreamFetchDone (core ctx : Nat) (s : State) : Host.Outcome State Fault Refusal :=
  whenUnits s (okCore core && okCtx ctx) (s.streamFetched core ctx)

end Sys2Proof.Machine
end

