-- ==== Sys2Proof/Machine/Sync.lean ====
section
/-! DEFINITION. The SYNC slot and the troupe semaphores (R157, R158), phase marks (R211), sync points and their
resume records (R159, R342), and the halt at a run count (R137). -/

namespace Sys2Proof.Machine

/-! Semaphores. -/

/-- Semaphore `k` of act `a` (R157). -/
def State.sem (s : State) (a k : Nat) : Nat := Sparse.get 0 s.sems (a * 64 + k)

/-- Sets a semaphore. -/
def State.setSem (s : State) (a k v : Nat) : State := { s with sems := Sparse.put s.sems (a * 64 + k) v }

/-- Records that a queue's SIGNAL or WAIT at a stream offset has been applied (R342). -/
def State.noteApplied (s : State) (n x off : Nat) : State :=
  match (s.ctx n x).queue with
  | some q => s.modQueue q fun k => { k with sigHigh := some off }
  | none => s

/-- Whether a SIGNAL or WAIT repeats one that the queue has applied (R342). -/
def State.applied (s : State) (n x off : Nat) : Bool :=
  match (s.ctx n x).queue with
  | some q => (match (s.queue q).sigHigh with | some h => serialLe off h | none => false)
  | none => false

/-- A WAIT's arrival: N leaves the semaphore and PD is set (R158). -/
def State.takeWait (s : State) (n x : Nat) (w : SemWait) : State :=
  let a := (s.ctx n x).act
  let s := s.setSem a w.sem (s.sem a w.sem - w.n)
  (((s.stirred n).modCtx n x fun c => { c with wait := none }).setPred n x w.pd true).noteApplied n x w.off

/-- The tick up to which a WAIT's arrival is on time: its deadline, or the tick in which it began when that is later
(R200). -/
def SemWait.until_ (w : SemWait) (d : Nat) : Nat := max d w.began

/-- Lets a waiting WAIT of an act take its semaphore when it can, on time (R158, R200). -/
def State.tryWait (s : State) (a n x : Nat) : State :=
  let c := s.ctx n x
  match c.wait with
  | some w =>
    if c.act = a && decide (w.n ≤ s.sem a w.sem) &&
        (match w.deadline with | some d => decide (s.now ≤ w.until_ d) | none => true) then s.takeWait n x w else s
  | none => s

/-- Offers an act's semaphores to its waiting WAITs, core by core in ascending order (the order among waiters is a
DESIGN CHOICE, log 40). -/
def State.wakeWaits (s : State) (a : Nat) : State :=
  s.each (s.cores.map (·.1)) fun n s => (s.tryWait a n 0).tryWait a n 1

/-- Adds to a semaphore when the sum stays below 2^32, and wakes the waiters. -/
def State.addSem (s : State) (a k n : Nat) : State := (s.setSem a k (s.sem a k + n)).wakeWaits a

/-! Fields. -/

/-- SEM [52:47]. -/
def syncSem (w : Nat) : Nat := bits w 47 6
/-- SX [46:42]. -/
def syncSx (w : Nat) : Nat := bits w 42 5
/-- N [29:14]. -/
def syncN (w : Nat) : Nat := bits w 14 16

/-- A SYNC operation in the shared slot form. -/
def State.sync (s : State) (n x op : Nat) (eff : OpenBundle → Nat → State → State) : State :=
  s.onSlot n x 7 op always eff

/-! SIGNAL and WAIT. -/

/-- SIGNAL: issued, to be applied once every effect of this and earlier bundles is complete. -/
def State.issueSignal (n x : Nat) (b : OpenBundle) (w : Nat) (s : State) : State :=
  s.modCtx n x fun c =>
    { c with sigs := c.sigs ++ [{ sem := syncSem w, n := syncN w, off := b.off, word := b.word, tag := b.tag }] }

/-- Whether the oldest SIGNAL of a context may apply: every effect of its own and of earlier bundles is complete
(R157). -/
def State.signalReady (s : State) (n x off : Nat) : Bool :=
  let c := s.ctx n x
  (match c.cur with | some b => b.off ≠ off || b.todo = [] | none => true) &&
    ((s.ctxXfers n x).all fun t => !serialLe t.off off) &&
    ((s.ctxProducts n x).all fun t => !serialLe t.off off) && ((s.ctxOps n x).all fun u => !serialLe u.b.off off) &&
    (match c.bucketWait with | some w => !serialLe w.off off | none => true) && c.lib.isNone &&
    !(x = 0 && (s.core n).sort.running.isSome)

/-- SIGNAL_APPLY: the semaphore takes N, or the bundle faults when it would pass 2^32 − 1; a repeat has no effect
(R157, R342). -/
def State.applySignal (s : State) (n x : Nat) : State :=
  match (s.ctx n x).sigs with
  | [] => s
  | g :: rest =>
    if !s.signalReady n x g.off then s
    else
      let a := (s.ctx n x).act
      let s := s.modCtx n x fun c => { c with sigs := rest }
      if s.applied n x g.off then s
      else if 2 ^ 32 ≤ s.sem a g.sem + g.n then s.execFault n x 7 0x02 g.word g.off g.tag
      else (s.noteApplied n x g.off).addSem a g.sem g.n

/-- WAIT: takes its semaphore at once, or waits; a repeat is skipped with PD set (R157, R158, R342). SX = 0 is read as the
field that names s0, not as a named register that holds 0 (DESIGN CHOICE, log 158). -/
def State.issueWait (n x : Nat) (b : OpenBundle) (w : Nat) (s : State) : State :=
  let v : SemWait :=
    { sem := syncSem w, n := syncN w, deadline := if syncSx w = 0 then none else some (b.sreg (syncSx w)), pd := bits w 39 3,
      off := b.off, tag := b.tag, began := s.now }
  if s.applied n x b.off then s.setPred n x v.pd true
  else if v.n ≤ s.sem (s.ctx n x).act v.sem then s.takeWait n x v
  else s.modCtx n x fun c => { c with wait := some v }

/-- WAIT_DEADLINE: past its deadline a WAIT ends with PD clear and DEADLINE_MISSED, of which a TIME event tells
(R158, R200, Table 8.9). -/
def State.waitTimeout (s : State) (n x : Nat) : State :=
  match (s.ctx n x).wait with
  | some w =>
    if (match w.deadline with | some d => decide (w.until_ d < s.now) | none => false) then
      ((((s.stirred n).modCtx n x fun c => { c with wait := none }).setPred n x w.pd false).note n x 0x40 w.off w.tag).ctxEvent
        n x 0x09 0x40 w.off w.tag (openPayload 0x09 0x40 (s.ctx n x).act s.now)
    else s
  | none => s

/-! The other operations. -/

/-- CUEWAIT: a one-shot entry that has fired ends it at once (R203). -/
def State.issueCuewait (n x : Nat) (b : OpenBundle) (w : Nat) (s : State) : State :=
  let e := bits w 30 9
  if s.fld (Reg.cueCtl e) Fld.cueCtlAct ≠ (s.ctx n x).act then s.slotFault n x b 7 0x03
  else if s.reg (Reg.cuePeriod e) = 0 ∧ s.flag (Reg.cueCtl e) Fld.cueCtlFired then s
  else s.modCtx n x fun c => { c with cueWait := some (e, s.now) }

/-- BUCKET: the descriptor is offered to the Carousel under the tag SX[15:0] (R157, R277). -/
def State.issueBucket (n x : Nat) (b : OpenBundle) (w : Nat) (s : State) : State :=
  s.modCtx n x fun c =>
    { c with bucketWait := some { acd := bits w 47 6, tag := bits (b.sreg (syncSx w)) 0 16, off := b.off, step := b.step } }

/-- A phase mark of an act (R211): the phase changes at the first mark of another phase; the ticks up to the mark go
to the phase that ends, unless the mark's stamp lies before PHASE_START. -/
def State.phaseMark (s : State) (a phase stamp : Nat) : State :=
  let old := s.fld (Reg.sckPhase a) Fld.sckPhasePhase
  if phase = 7 ∨ phase = old then s
  else
    let start := s.reg (Reg.sckPhaseStart a)
    let s := s.setFld (Reg.sckPhase a) Fld.sckPhasePhase phase
    if stamp < start then s
    else
      let s := if old = 7 then s
        else s.addOpen (Reg.sckPhaseTicks a old) Fld.sckPhaseTicksTicks (stamp - start)
      s.setReg (Reg.sckPhaseStart a) stamp

/-- EVENT: a USER event that carries SX; one tagged 0x5048 marks a phase, stamped at the bundle's issue (R157,
R211). -/
def State.userEvent (n x : Nat) (b : OpenBundle) (w : Nat) (s : State) : State :=
  let v := b.sreg (syncSx w)
  let c := s.ctx n x
  let s := s.ctxEvent n x 0x03 0 b.off b.tag (leBytes 8 v)
  if bits v 48 16 = 0x5048 then s.phaseMark c.act (bits v 0 3) c.lastIssue else s

/-! Sync points. -/

/-- The resume record of a context before the bundle at its word (R159). -/
def State.resumeRec (s : State) (n x : Nat) : ResumeRec :=
  let c := s.ctx n x
  let k := s.core n
  let es := (s.openRegions n x).flatMap fun r => (List.range r.2).map fun i => r.1 + i
  { word := c.word, off := c.off, sregs := c.sregs, preds := c.preds, loops := c.loops, step := c.step,
    acds := if x = 1 then [] else (List.range 64).map fun i =>
      (BitVec.ofNat 64 (s.reg (Reg.mxAcd0 n i)), BitVec.ofNat 64 (s.reg (Reg.mxAcd1 n i))),
    regions := es.map fun e => (e, Sparse.get 0 k.acc e),
    marks := es.filter fun e => Sparse.get false k.accPoison e,
    copyCons := c.copyCons.map fun p => (p.1, s.nextMsg p.1) }

/-- Writes the record to the resume area: its size is stated, its layout is not (log 11). -/
def State.writeRecord (s : State) (n x : Nat) : State :=
  let bs := (List.range (s.recordBytes n x)).map fun i => Config.resumeByte s.free i
  s.drawn.writeMem .near (s.ctx n x).resume bs

/-- Whether a doubled core's other logical core has a stream that could run in context 0 (R341). -/
def State.otherReady (s : State) (n : Nat) : Bool :=
  s.coreState n = 5 && (match (s.ctx n 0).queue with
    | some q => s.createdQueues.any fun r =>
        s.qType r = 1 && s.qRunning r && (s.core n).logical.contains
            ((s.queueAct r).getD 0, s.fld (Reg.qmQCfg r) Fld.qmQCfgCore) &&
          s.fld (Reg.qmQCfg r) Fld.qmQCfgCore ≠ s.fld (Reg.qmQCfg q) Fld.qmQCfgCore &&
          (decide (0 < s.qUsed r) || (s.queue r).rec_.isSome)
    | none => false)

/-- A doubled core leaves its logical core's stream and turns to the other logical core (R341). -/
def State.switchDoubled (s : State) (n : Nat) : State :=
  (s.modCore n fun k =>
    { k with leaving := (s.ctx n 0).queue.map fun q => s.fld (Reg.qmQCfg q) Fld.qmQCfgCore }).unbind n 0

/-- Whether an act 0 TEST stream waits for core `n` (R404). -/
def State.testWaits (s : State) (n : Nat) : Bool :=
  s.createdQueues.any fun q => s.qType q = 1 && s.qRunning q && s.queueAct q = some 0 && (s.queue q).bound.isNone &&
    s.fld (Reg.qmQCfg q) Fld.qmQCfgContext = 2 && s.fld (Reg.qmQCfg q) Fld.qmQCfgCore = n && (s.queue q).entries ≠ []

/-- RESUME_RECORD: at a sync point, once every earlier effect is complete, the record is written and the messages
consumed so far are freed; a doubled core then turns to its other logical core (R159, R341, R342), and a sideshow act
leaves the core for which a TEST stream waits (R404). -/
def State.syncPoint (s : State) (n x : Nat) : State :=
  let c := s.ctx n x
  let ready := c.cur.isNone && s.mayIssue n x && decide (c.word < c.words) && hdrSync (s.streamWord c c.word) &&
    !c.syncDone && s.decodeFaults n x c c.word = [] && c.resume ≠ 0 &&
    decide (s.recordBytes n x ≤ c.resumeKib * 1024) && s.quiet n x
  if !ready then s
  else
    let r := s.resumeRec n x
    let s := s.writeRecord n x
    let s := s.freeCopies n x
    let s := s.setReg (Reg.seqSyncpos n x) (c.off + c.word * 2 ^ 32)
    let s := match c.queue with
      | some q => s.modQueue q fun k => { k with rec_ := some r }
      | none => s
    let s := s.modCtx n x fun c => { c with syncDone := true, state := .issuing }
    if x = 0 ∧ s.otherReady n then s.switchDoubled n
    else if x = 1 ∧ s.testWaits n then (s.unbind n 1).modCore n fun k => { k with sideHolder := none }
    else s

/-- RUN_COUNT_HALT: before the bundle whose stream offset is N, once every earlier effect is complete, the queue
halts and writes its event (R137). -/
def State.runCountHalt (s : State) (q : Nat) : State :=
  match (s.queue q).bound with
  | some (n, x) =>
    let c := s.ctx n x
    let lim := s.fld (Reg.qmQRuncnt q) Fld.qmQRuncntN
    if c.queue = some q ∧ lim ≠ 0 ∧ c.off = lim ∧ c.reload = false ∧ c.state ≠ .halted ∧ c.ended = false ∧ s.quiet n x then
      (s.ctxEvent n x 0x04 0 lim 0 (leBytes 4 lim)).haltStream n x 4
    else s
  | none => s

/-! Meanings. -/

/-- FENCE: its gate has let it issue only once every earlier effect is complete (R157). -/
def execFence (core ctx : Nat) (s : State) : Host.Outcome State Fault Refusal :=
  whenUnits s (okCore core && okCtx ctx) (s.sync core ctx 1 fun _ _ s => s)
/-- SIGNAL. -/
def execSignal (core ctx : Nat) (s : State) : Host.Outcome State Fault Refusal :=
  whenUnits s (okCore core && okCtx ctx) (s.sync core ctx 2 (State.issueSignal core ctx))
/-- SIGNAL_APPLY. -/
def execSignalApply (core ctx : Nat) (s : State) : Host.Outcome State Fault Refusal :=
  whenUnits s (okCore core && okCtx ctx) (s.applySignal core ctx)
/-- WAIT. -/
def execWait (core ctx : Nat) (s : State) : Host.Outcome State Fault Refusal :=
  whenUnits s (okCore core && okCtx ctx) (s.sync core ctx 3 (State.issueWait core ctx))
/-- WAIT_DEADLINE. -/
def execWaitDeadline (core ctx : Nat) (s : State) : Host.Outcome State Fault Refusal :=
  whenUnits s (okCore core && okCtx ctx) (s.waitTimeout core ctx)
/-- CUEWAIT. -/
def execCuewait (core ctx : Nat) (s : State) : Host.Outcome State Fault Refusal :=
  whenUnits s (okCore core && okCtx ctx) (s.sync core ctx 4 (State.issueCuewait core ctx))
/-- BUCKET. -/
def execBucket (core ctx : Nat) (s : State) : Host.Outcome State Fault Refusal :=
  whenUnits s (okCore core && okCtx ctx) (s.sync core ctx 5 (State.issueBucket core ctx))
/-- EVENT. -/
def execEvent (core ctx : Nat) (s : State) : Host.Outcome State Fault Refusal :=
  whenUnits s (okCore core && okCtx ctx) (s.sync core ctx 6 (State.userEvent core ctx))
/-- RESUME_RECORD. -/
def execResumeRecord (core ctx : Nat) (s : State) : Host.Outcome State Fault Refusal :=
  whenUnits s (okCore core && okCtx ctx) (s.syncPoint core ctx)
/-- RUN_COUNT_HALT. -/
def execRunCountHalt (q : Nat) (s : State) : Host.Outcome State Fault Refusal :=
  whenUnits s (okQueue q) (s.runCountHalt q)

end Sys2Proof.Machine
end

