-- ==== Sys2Proof/Machine/Tables.lean ====
section
/-! DEFINITION. The Table Store's generations: what holds a reference to one, and the retirement of those that nothing holds
(R269, R271). -/

namespace Sys2Proof.Machine

/-! Fields of a sample entry (Table 9.1) that the Table Store looks at. -/

/-- KIND. -/
def Sample.kind (x : Sample) : Nat := fieldAt x.raw 12 1 % 16
/-- SLOT. -/
def Sample.slot (x : Sample) : Nat := fieldAt x.raw 14 1 % 64

/-- Kinds 1 and 2: still images. -/
def isImage (k : Nat) : Bool := k = 1 || k = 2
/-- Kinds 3 to 5: video. -/
def isVideo (k : Nat) : Bool := k = 3 || k = 4 || k = 5
/-- Kinds 6 to 8: audio. -/
def isAudio (k : Nat) : Bool := k = 6 || k = 7 || k = 8
/-- A media kind. -/
def isMedia (k : Nat) : Bool := isImage k || isVideo k || isAudio k

/-- The engine kind that decodes a sample kind: 0 image, 1 video, 2 audio, 3 tokenizer. -/
def engineOf (k : Nat) : Nat := if isImage k then 0 else if isVideo k then 1 else if isAudio k then 2 else 3

/-- The Midway that a queue is homed on (R22). -/
def homeMidway (q : Nat) : Nat := if q < 0x8000 then 0 else 1

/-- The samples that engine `e` of a kind decodes on Midway `m`. -/
def State.engineLoad (s : State) (m kind e : Nat) : Nat :=
  s.queues.foldl (fun a p => if homeMidway p.1 = m then
    a + (p.2.samples.filter fun x => engineOf x.kind = kind &&
      (match x.state with | .dispatched d _ => d = e | _ => false)).length else a) 0

/-! Generations. -/

/-- A Table Store slot. -/
def State.tsSlot (s : State) (n : Nat) : TsSlot := Sparse.get { cur := none, prev := none, by_ := none } s.ts n

/-- A slot as an entry of a queue sees it at its fetch: a commit of this cycle comes after it, unless the load is of the
same queue (R270, R272). -/
def State.tsSeen (s : State) (q n : Nat) : TsSlot :=
  let t := s.tsSlot n
  match t.by_ with
  | some (at_, r) => if at_ = s.now ∧ r ≠ q then { t with cur := t.prev, prev := none } else t
  | none => t

/-- Whether a fetched sample holds a reference: a TEXT sample until its tokenization ends or it is voided (R271). -/
def Sample.holds (x : Sample) (slot gen : Nat) : Bool :=
  x.kind = 9 && x.slot = slot && x.gen = gen &&
    (match x.state with | .fetched => true | .dispatched _ _ => true | _ => false)

/-- Whether a block's 32 header bytes name a code-table generation. -/
def blockNames (bs : Bytes) (slot gen : Nat) : Bool :=
  let h := parseHdr bs
  h.mode = 1 && h.slot = slot && h.gen = gen

/-- Whether a frame is a gather block that names a code-table generation. -/
def frameNames (f : Frame) (slot gen : Nat) : Bool := f.typ = 1 && (parseHdr f.ext).kind = 2 && blockNames f.ext slot gen

/-- References to a generation: of samples; of gather blocks received and not yet stored; of those packed or forwarded here
that the Carousel still holds for a re-send; and of those of other modules that wait at a port in transit (R271, R287;
DEDUCED, log 115). -/
def State.tsRefs (s : State) (slot gen : Nat) : Nat :=
  s.queues.foldl (fun a p => a + (p.2.samples.filter fun x => x.holds slot gen).length) 0 +
    s.buckets.foldl (fun a p => a + (p.2.arrived.filter fun bs => blockNames bs slot gen).length) 0 +
    s.ports.foldl (fun a p => a + (p.2.outq.filter fun o => frameNames o.frame slot gen && o.came.isSome).length) 0 +
    (s.heldFrames.filter fun h => frameNames h.frame slot gen).length

/-- Shows a slot's generations (Table 9.13). -/
def State.showSlot (s : State) (n : Nat) : State :=
  let t := s.tsSlot n
  let k := Reg.tsSlot n
  let s := match t.cur with
    | some b => ((s.setFld k Fld.tsSlotCurGen b.gen).setFld k Fld.tsSlotCurValid 1).setReg (Reg.tsSize n) b.image.length
    | none => s
  match t.prev with
  | some b => (s.setFld k Fld.tsSlotPrevGen b.gen).setFld k Fld.tsSlotPrevValid 1
  | none => s.setFld k Fld.tsSlotPrevValid 0

/-- The payload of an INPUT event (R265). -/
def inputPayload (count reason kind slot gen batch at_ : Nat) : Bytes :=
  leBytes 4 count ++ leBytes 1 reason ++ leBytes 1 kind ++ leBytes 1 slot ++ leBytes 1 gen ++ leBytes 4 batch ++
    leBytes 4 0 ++ leBytes 8 at_

/-- Retires, at the end of a cycle, the previous generations without references: the expanders drop them and an INPUT event
tells the slot's owner. A generation that a commit of this cycle displaced is checked in the next (R271, R272). -/
def State.retireTables (s : State) : State :=
  s.each (s.ts.map (·.1)) fun n s =>
    match (s.tsSlot n).prev with
    | none => s
    | some b =>
      if s.tsRefs n b.gen ≠ 0 || (s.tsSlot n).by_.any (fun c => c.1 = s.now) then s
      else
        let s := { s with ts := Sparse.put s.ts n { s.tsSlot n with prev := none } }.showSlot n
        let s := s.each (s.cores.map (·.1)) fun c s => s.modCore c fun k =>
          { k with xps := k.xps.map fun p => (p.1, { p.2 with cache := p.2.cache.filter fun e => e ≠ (n, b.gen) }) }
        s.actEvent 0x08 0 (s.fld (Reg.tsSlot n) Fld.tsSlotOwner) (inputPayload 0 0x21 0 n b.gen 0 0)

/-! What the registers of the input pipeline show (Tables 9.11 to 9.13). -/

/-- Whether a TABLE_LOAD of the queue has still to be carried out (R270). -/
def Queue.loading (k : Queue) : Bool := k.samples.any fun x => x.kind = 0xE && x.state = .fetched

/-- Whether a load waits for its slot's other bank: an older generation there is still referenced (R270). -/
def State.loadWaits (s : State) (x : Sample) : Bool :=
  x.kind = 0xE && x.state = .fetched && (s.tsSlot x.slot).prev.isSome

/-- IN.STATUS: WINDOW_USED, LOAD_WAIT, FREE_WAIT, HEAD. -/
def State.inStatusWord (s : State) (q : Nat) : Nat :=
  let k := s.queue q
  k.samples.length + b2n (k.samples.any s.loadWaits) * 2 ^ 11 + s.fld (Reg.inStatus q) Fld.inStatusFreeWait * 2 ^ 12 +
    (match k.samples.head? with
      | some x => x.count
      | none => (s.qCons q + k.pendCmpl.length) % 2 ^ 32) * 2 ^ 32

/-- IN.BATCH: the batch being filled, and RELEASED. -/
def State.inBatchWord (s : State) (q : Nat) : Nat := putBits (s.reg (Reg.inBatch q)) 0 32 (s.queue q).batch.number

/-- TS.SLOT with LOAD_WAIT as the queues have it. -/
def State.tsSlotWord (s : State) (n : Nat) : Nat :=
  putBits (s.reg (Reg.tsSlot n)) 25 1
    (b2n (s.queues.any fun p => p.2.samples.any fun x => x.slot = n && s.loadWaits x))

/-- Which engines of a kind decode: bit e for engine e. -/
def State.enginesBusy (s : State) (m kind n : Nat) : Nat :=
  (List.range n).foldl (fun a e => a + b2n (decide (0 < s.engineLoad m kind e)) * 2 ^ e) 0

/-- MD.STATUS. -/
def State.mdStatusWord (s : State) (m : Nat) : Nat :=
  s.enginesBusy m 0 6 + s.engineLoad m 1 0 * 2 ^ 8 + s.engineLoad m 1 1 * 2 ^ 12 + s.enginesBusy m 2 2 * 2 ^ 16

end Sys2Proof.Machine
end

