-- ==== Sys2Proof/Machine/Lanes.lean ====
section
/-! DEFINITION. The lanes of the vector engine: registers, masks and active lanes (R104, R105), the lane-wise
functions of Table 4.1 with the fixed functions of R107, and the reductions of R113. -/

namespace Sys2Proof.Machine

/-! Lanes. -/

/-- Lane `i` of a list of lanes. -/
def laneOf (l : List Nat) (i : Nat) : Nat := (l[i]?).getD 0

/-- Element `j` of a register of binary64: lanes 2j and 2j + 1 (R104). -/
def elem64 (l : List Nat) (j : Nat) : Nat := laneOf l (2 * j) + laneOf l (2 * j + 1) * 2 ^ 32

/-- The two lanes of a binary64 code. -/
def split64 (v : Nat) : List Nat := [v % 2 ^ 32, v / 2 ^ 32 % 2 ^ 32]

/-- The 128 lanes of vector register `r` in context `x`'s bank. -/
def State.vecRead (s : State) (n x r : Nat) : List Nat := ((s.core n).vreg x r).map (·.toNat)

/-- Writes 128 lanes of a vector register. -/
def State.vecWrite (s : State) (n x r : Nat) (l : List Nat) : State :=
  s.modCore n fun k => { k with vregs := Sparse.put k.vregs (x * 64 + r) (l.map (BitVec.ofNat 32)) }

/-- Writes a mask register. -/
def State.maskWrite (s : State) (n x m : Nat) (f : Nat → Bool) : State :=
  let v := (List.range 128).foldl (fun a i => if f i then a + 2 ^ i else a) 0
  s.modCore n fun k => { k with masks := Sparse.put k.masks (x * 8 + m) (BitVec.ofNat 128 v) }

/-- Whether lane `i` is active: the slot is unmasked, or bit i of mask MK is 1 (R105). -/
def State.lane (s : State) (n x w i : Nat) : Bool :=
  !bit w 52 || ((s.core n).mask x (bits w 49 3)).getLsbD i

/-- The lanes that are active. -/
def State.activeLanes (s : State) (n x w : Nat) : List Nat := (List.range 128).filter (s.lane n x w)

/-- TY of a VEC slot. -/
def vecTy (w : Nat) : Nat := bits w 47 2
/-- VD. -/
def vecVd (w : Nat) : Nat := bits w 41 6
/-- VA. -/
def vecVa (w : Nat) : Nat := bits w 35 6
/-- VB. -/
def vecVb (w : Nat) : Nat := bits w 29 6
/-- VC. -/
def vecVc (w : Nat) : Nat := bits w 23 6

/-- 32-bit lanes of which the active ones take `f`'s results and the others keep `old`, with the flags that the
active ones raise (R105). -/
def map32 (act : Nat → Bool) (old : List Nat) (f : Nat → Nat × Nat) : List Nat × Nat :=
  let r := (List.range 128).map fun i => if act i then f i else (laneOf old i, 0)
  (r.map (·.1), r.foldl (fun a p => a ||| p.2) 0)

/-- The same for the 64 elements of binary64, each governed by mask bit 2j. -/
def map64 (act : Nat → Bool) (old : List Nat) (f : Nat → Nat × Nat) : List Nat × Nat :=
  let r := (List.range 64).map fun j => if act (2 * j) then f j else (elem64 old j, 0)
  (r.flatMap fun p => split64 p.1, r.foldl (fun a p => a ||| p.2) 0)

/-- NUM.FPCTL.RDIR (Table 2.7). -/
def State.rdir (s : State) (n : Nat) : Nat := s.fld (Reg.numFpctl n) Fld.numFpctlRdir

/-- An operation on the lanes of VA, VB and VC, in binary32 or in binary64 as TY says, into VD. -/
def State.vecFloat (f : IFmt → Nat → Nat → Nat → Nat → Nat × Nat) (n x w : Nat) (s : State) : State :=
  let a := s.vecRead n x (vecVa w)
  let b := s.vecRead n x (vecVb w)
  let c := s.vecRead n x (vecVc w)
  let old := s.vecRead n x (vecVd w)
  let rd := s.rdir n
  let r := if vecTy w = 1
    then map64 (s.lane n x w) old fun j => f F64 rd (elem64 a j) (elem64 b j) (elem64 c j)
    else map32 (s.lane n x w) old fun i => f F32 rd (laneOf a i) (laneOf b i) (laneOf c i)
  (s.vecWrite n x (vecVd w) r.1).raise n r.2

/-- An operation on 32-bit words of VA and VB into VD; `sgn` says that TY is int32. -/
def State.vecInt (f : Bool → Nat → Nat → Nat) (n x w : Nat) (s : State) : State :=
  let a := s.vecRead n x (vecVa w)
  let b := s.vecRead n x (vecVb w)
  let r := map32 (s.lane n x w) (s.vecRead n x (vecVd w)) fun i =>
    (f (vecTy w = 2) (laneOf a i) (laneOf b i) % 2 ^ 32, 0)
  s.vecWrite n x (vecVd w) r.1

/-! Lane functions. -/

/-- The order of minimum and maximum: −0 ranks below +0 (R106). -/
def IFmt.rank (F : IFmt) (c : Nat) : Int := if F.sign c then -(F.mag c : Int) - 1 else (F.mag c : Int)

/-- IEEE minimum. -/
def IFmt.minimum (F : IFmt) (a b : Nat) : Nat × Nat :=
  match F.nanOf [a, b] with
  | some r => r
  | none => (if F.rank a ≤ F.rank b then a else b, 0)

/-- IEEE maximum. -/
def IFmt.maximum (F : IFmt) (a b : Nat) : Nat × Nat :=
  match F.nanOf [a, b] with
  | some r => r
  | none => (if F.rank a ≤ F.rank b then b else a, 0)

/-- The magnitude of `a` with the sign of `b` (CPYSGN copies VB's sign; DEDUCED, log 20). -/
def IFmt.copySign (F : IFmt) (a b : Nat) : Nat := F.mag a + b2n (F.sign b) * 2 ^ (F.ew + F.fw)

/-- A comparison under COND: signalling for LT, LE, GT and GE, quiet for EQ, NE and UN (R106). -/
def IFmt.compare (F : IFmt) (cond a b : Nat) : Bool × Nat :=
  match F.cmp a b with
  | none =>
    (cond = 1 || cond = 6,
      if (2 ≤ cond ∧ cond ≤ 5) ∨ F.isSnan a ∨ F.isSnan b then flNv else 0)
  | some (lt, eq) =>
    (match cond with
      | 0 => eq | 1 => !eq | 2 => lt | 3 => lt || eq | 4 => !(lt || eq) | 5 => !lt | _ => false, 0)

/-- A comparison of integer lanes. -/
def intCompare (sgn : Bool) (cond a b : Nat) : Bool :=
  let x := if sgn then toSigned 32 a else (a : Int)
  let y := if sgn then toSigned 32 b else (b : Int)
  match cond with
  | 0 => decide (x = y) | 1 => decide (x ≠ y) | 2 => decide (x < y) | 3 => decide (x ≤ y)
  | 4 => decide (y < x) | 5 => decide (y ≤ x) | _ => false

/-- A shift by 32 or more has no stated result (log 17). -/
def shiftOr (op a b : Nat) (v : Nat) : Nat :=
  if b < 32 then v else (Config.wideShift op (BitVec.ofNat 32 a) (BitVec.ofNat 32 b)).toNat

/-- A 32-bit arithmetic shift right. -/
def sra32 (a k : Nat) : Nat := ofSigned 32 (toSigned 32 a / ((2 ^ k : Nat) : Int))

/-- A value converted to a 32-bit integer: it rounds under RDIR; a NaN or a value out of range is invalid, and
its lane is left open (log 18). An inexact one raises IEEE_NX (DESIGN CHOICE, log 18: IEEE 754 has conversions that do and
conversions that do not). -/
def IFmt.toInt32 (F : IFmt) (rdir src dst a : Nat) : Nat × Nat :=
  let bad := ((Config.convertOpen src dst (BitVec.ofNat 64 a)).toNat, flNv)
  if !F.isFin a then bad
  else
    let r := (F.value a).toInt rdir
    let lo : Int := if dst = 2 then -2147483648 else 0
    let hi : Int := if dst = 2 then 2147483647 else 4294967295
    if r.1 < lo ∨ hi < r.1 then bad else (ofSigned 32 r.1, if r.2 then flNx else 0)

/-- One conversion of CVT, from type `src` to type `dst` (R106). -/
def convertLane (rdir src dst a : Nat) : Nat × Nat :=
  let i : Int := if src = 2 then toSigned 32 a else ((a % 2 ^ 32 : Nat) : Int)
  match src, dst with
  | 0, 0 => F32.convert F32 rdir a
  | 0, 1 => F32.convert F64 rdir a
  | 1, 0 => F64.convert F32 rdir a
  | 1, 1 => F64.convert F64 rdir a
  | 0, d => F32.toInt32 rdir 0 d a
  | 1, d => F64.toInt32 rdir 1 d a
  | _, 0 => F32.ofInt rdir i
  | _, 1 => F64.ofInt rdir i
  | _, d =>
    if d ≠ src ∧ 2147483647 < a % 2 ^ 32 then
      ((Config.convertOpen src d (BitVec.ofNat 64 a)).toNat, 0)
    else (a % 2 ^ 32, 0)

/-! The fixed functions (R107). -/

/-- The magnitude codes within 1 ulp of a value between the codes `lo` and `hi`; when they are one code the
value is exact, and the codes 1 ulp away are within the bound too. -/
def withinUlp (lo hi : Nat) : List Nat :=
  if lo ≠ hi then [lo, hi]
  else [lo, lo + 1] ++ (if lo = 0 then [] else [lo - 1]) ++
    (if lo % 2 ^ 23 = 0 ∧ 2 ^ 24 ≤ lo then [lo - 2] else [])

/-- A fixed function's result: one of the codes within the bound, none of them a NaN. -/
def fixedResult (fn x : Nat) (neg : Bool) (codes : List Nat) : Nat :=
  let l := codes.filter fun c => decide (c ≤ F32.inf false)
  let c := laneOf l ((Config.fixedPick fn (BitVec.ofNat 32 x)).toNat % max 1 l.length)
  c + b2n neg * 2 ^ 31

/-- The magnitude codes that a magnitude of at least `m × 2^e` and at most `m' × 2^e` can round to, one way or
the other. Beyond the binary32 range no value lies within 1 ulp: there the largest finite value and infinity are both
allowed (DESIGN CHOICE, log 16). -/
def bracket (m m' : Nat) (e : Int) (exact : Bool) : List Nat :=
  let lo := (F32.round 3 false m e (!exact)).1
  let hi := (F32.round 1 false m' e (!exact)).1
  if exact then withinUlp lo hi
  else (List.range (hi - lo + 1)).map fun i => lo + i

/-- 2^(f / 2^k), scaled by 2^p and rounded down by the way: the product of the square roots of 2 that the bits of
`f` choose, from the highest. -/
def exp2Frac (p : Nat) : Nat → Nat → Nat → Nat → Nat
  | 0, _, _, acc => acc
  | k + 1, f, root, acc =>
    let root := isqrt (root * 2 ^ p)
    exp2Frac p k (f % 2 ^ k) root (if 2 ^ k ≤ f then acc * root / 2 ^ p else acc)

/-- EXP2. -/
def exp2Fixed (x : Nat) : Nat × Nat :=
  match F32.nanOf [x] with
  | some r => r
  | none =>
    if F32.isInf x then (if F32.sign x then 0 else F32.inf false, 0)
    else
      let d := F32.value x
      if (⟨256, 0⟩ : Dy).lt d then (F32.inf false, 0)
      else if d.lt ⟨-256, 0⟩ then (fixedResult 0 x false [0, 1], 0)
      else if d.abs.lt ⟨1, -40⟩ then
        (fixedResult 0 x false (if d.m = 0 then withinUlp 0x3F800000 0x3F800000
          else if d.m < 0 then [0x3F7FFFFF, 0x3F800000] else [0x3F800000, 0x3F800001]), 0)
      else
        let k := (-(min d.e 0)).toNat
        let i := d.at (min d.e 0)
        let n := i / ((2 ^ k : Nat) : Int)
        let f := (i % ((2 ^ k : Nat) : Int)).toNat
        let m := exp2Frac 128 k f (2 * 2 ^ 128) (2 ^ 128)
        if f = 0 then (fixedResult 0 x false (bracket (2 ^ 128) (2 ^ 128) (n - 128) true), 0)
        else (fixedResult 0 x false (bracket m (m + 2 ^ 16) (n - 128) false), 0)

/-- The bits of log2 of z / 2^p, for z / 2^p in [1, 2), by repeated squaring, rounded down by the way. -/
def log2Bits (p : Nat) : Nat → Nat → Nat → Nat
  | 0, _, acc => acc
  | k + 1, z, acc =>
    let y := z * z / 2 ^ p
    if 2 ^ (p + 1) ≤ y then log2Bits p k (y / 2) (2 * acc + 1) else log2Bits p k y (2 * acc)

/-- LOG2. -/
def log2Fixed (x : Nat) : Nat × Nat :=
  match F32.nanOf [x] with
  | some r => r
  | none =>
    if F32.isZero x then (F32.inf true, flDz)
    else if F32.sign x then (F32.nan, flNv)
    else if F32.isInf x then (x, 0)
    else
      let d := F32.value x
      let b := bitLen d.m.natAbs
      let e : Int := d.e + b - 1
      let z := d.m.natAbs * 2 ^ (192 - (b - 1))
      if z = 2 ^ 192 then
        (fixedResult 1 x (e < 0) (bracket e.natAbs e.natAbs 0 true), 0)
      else
        let t : Int := e * 2 ^ 64 + (log2Bits 192 64 z 0 : Nat)
        let m := min t.natAbs (t + 4).natAbs
        let m' := max t.natAbs (t + 4).natAbs
        (fixedResult 1 x (t < 0) (bracket m m' (-64) false), 0)

/-- RCP. -/
def rcpFixed (x : Nat) : Nat × Nat :=
  match F32.nanOf [x] with
  | some r => r
  | none =>
    if F32.isZero x then (F32.inf (F32.sign x), flDz)
    else if F32.isInf x then (F32.zero (F32.sign x), 0)
    else
      let d := F32.value x
      let q := 2 ^ 80 / d.m.natAbs
      let exact := decide (q * d.m.natAbs = 2 ^ 80)
      (fixedResult 2 x (F32.sign x) (bracket q (if exact then q else q + 1) (-80 - d.e) exact), 0)

/-- RSQ. -/
def rsqFixed (x : Nat) : Nat × Nat :=
  match F32.nanOf [x] with
  | some r => r
  | none =>
    if F32.isZero x then
      (if F32.sign x then Config.rsqNegZero.toNat else F32.inf false, 0)
    else if F32.sign x then (F32.nan, flNv)
    else if F32.isInf x then (0, 0)
    else
      let d := F32.value x
      let odd : Nat := if d.e % 2 = 0 then 0 else 1
      let m := d.m.natAbs * 2 ^ odd
      let e := d.e - odd
      let q := isqrt (2 ^ 160 / m)
      let exact := decide (q * q * m = 2 ^ 160)
      (fixedResult 3 x false (bracket q (if exact then q else q + 1) (-80 - e / 2) exact), 0)

/-! Reductions (R113). -/

/-- A value of a reduction: its code and whether an active lane has entered it. -/
abbrev RVal := Nat × Bool

/-- One level of the tree: neighbours combined. -/
def treeLevel (f : Nat → Nat → Nat × Nat) : List RVal → List RVal × Nat
  | a :: b :: l =>
    let r := f a.1 b.1
    let t := treeLevel f l
    ((r.1, a.2 || b.2) :: t.1, (if a.2 && b.2 then r.2 else 0) ||| t.2)
  | l => (l, 0)

/-- The tree of R113 over 2^k values: the result, and the flags of combinations between values that come from
active lanes. -/
def tree (f : Nat → Nat → Nat × Nat) : Nat → List RVal → Nat × Nat
  | 0, l => ((l.headD (0, false)).1, 0)
  | k + 1, l =>
    let r := treeLevel f l
    let t := tree f k r.1
    (t.1, r.2 ||| t.2)

/-- The scalar result of a reduction of one register (Table 4.2). -/
def State.vecReduce (f : IFmt → Nat → Nat → Nat → Nat × Nat) (ident : IFmt → Nat) (mag : Bool) (n x w : Nat)
    (s : State) : State :=
  let a := s.vecRead n x (vecVa w)
  let rd := s.rdir n
  let r := if vecTy w = 1 then
      tree (f F64 rd) 6 ((List.range 64).map fun j =>
        if s.lane n x w (2 * j) then (elem64 a j, true) else (ident F64, false))
    else
      tree (f F32 rd) 7 ((List.range 128).map fun i =>
        if s.lane n x w i then ((if mag then F32.mag (laneOf a i) else laneOf a i), true) else (ident F32, false))
  (s.setSreg n x (bits w 41 5) r.1).raise n r.2

end Sys2Proof.Machine
end

