-- ==== Sys2Proof/Machine/VecMem.lean ====
section
/-! DEFINITION. The VEC slot's accumulator and stage-buffer operations: LDA, STA, LD, ST, LDX, STC, GATHER and
SCATTER (R108 to R112), and the statistics slots that a conversion merges into (R66, R67). -/

namespace Sys2Proof.Machine

/-! Statistics slots. -/

/-- What one conversion merges: largest finite input magnitude, elements saturated, NaN and infinite inputs. -/
structure Stat where
  amax : Nat
  sats : Nat
  nonfin : Nat
  deriving DecidableEq, Repr

/-- The statistics of converted binary32 inputs. -/
def statOf (xs : List Nat) (sats : Nat) : Stat :=
  { amax := ((xs.filter F32.isFin).map F32.mag).foldl max 0, sats := sats,
    nonfin := (xs.filter fun x => !F32.isFin x).length }

/-- Two parts of one conversion together. -/
def Stat.join (a b : Stat) : Stat := ⟨max a.amax b.amax, a.sats + b.sats, a.nonfin + b.nonfin⟩

/-- The step difference of R67, read as signed. -/
def stepDiff (new old : Nat) : Int := toSigned 32 ((new + 2 ^ 32 - old) % 2 ^ 32)

/-- The near address of statistics slot `slot` of an act (R66). An act with no layout has no table. -/
def State.statEntry (s : State) (act slot : Nat) : Option Nat := (s.layout? act).map fun l => l.statsBase + 16 * slot

/-- Merges into statistics slot `slot` of an act (R67). -/
def State.mergeStat (s : State) (act slot step : Nat) (t : Stat) : State :=
  match s.statEntry act slot with
  | none => s
  | some a =>
    let d := stepDiff step (s.readNum .near (a + 8) 4)
    let put (amax sats nonfin : Nat) : State :=
      s.writeMem .near a (leBytes 4 amax ++ leBytes 2 (min sats 0xFFFF) ++ leBytes 2 (min nonfin 0xFFFF) ++
        leBytes 4 step ++ leBytes 4 0)
    if d < 0 then s
    else if d = 0 then
      put (max t.amax (s.readNum .near a 4)) (t.sats + s.readNum .near (a + 4) 2)
        (t.nonfin + s.readNum .near (a + 6) 2)
    else put t.amax t.sats t.nonfin

/-- Merges a logical row's 8-byte entry at a near address (R68). -/
def State.mergeRowStat (s : State) (a step amax : Nat) : State :=
  let d := stepDiff step (s.readNum .near (a + 4) 4)
  if d < 0 then s
  else s.writeMem .near a (leBytes 4 (if d = 0 then max amax (s.readNum .near a 4) else amax) ++ leBytes 4 step)

/-! Faults and bytes. -/

/-- The execution fault of a lane's address outside its region: VX.FAULT and VX.ADDR hold the lowest such lane,
unless a record is held (R109, R131, R166). -/
def State.vecDenied (s : State) (n x : Nat) (b : OpenBundle) (lane addr : Nat) : State :=
  let k := Reg.vxFault n
  let s := if bit (s.reg k) 0 then s
    else (s.setReg k (1 + lane * 2 + 0x300 + (recTag x b.off b.tag).toNat * 2 ^ 32)).setReg (Reg.vxAddr n)
      (addr % 2 ^ 48)
  let s := s.ctxEvent n x 0x05 0x03 b.off b.tag (openPayload 0x05 0x03 (s.ctx n x).act s.now)
  (s.note n x 0x03 b.off b.tag).haltStream n x 6

/-- The accesses of an operation: lane, address in the context's numbering, bytes. -/
abbrev Acc := Nat × Nat × Nat

/-- The lowest lane whose access lies outside the context's region (R109). -/
def State.outside (s : State) (n x : Nat) (l : List Acc) : Option (Nat × Nat) :=
  let size := (s.stageRegion n x).2
  (l.find? fun a => decide (size < a.2.1 + a.2.2)).map fun a => (a.1, a.2.1)

/-- The physical ranges of accesses. -/
def State.physical (s : State) (n x : Nat) (l : List Acc) : List (Nat × Nat) :=
  l.map fun a => ((s.stageRegion n x).1 + a.2.1, a.2.2)

/-- Joins cells at rising addresses into runs of bytes. -/
def runsOf : List (Nat × Byte) → List (Nat × Bytes)
  | [] => []
  | (a, b) :: l =>
    match runsOf l with
    | (c, bs) :: r => if c = a + 1 then (a, b :: bs) :: r else (a, [b]) :: (c, bs) :: r
    | [] => [(a, [b])]

/-- Writes one instruction's bytes to the stage buffer; where two name one byte the later stands. Words covered
whole lose their marks (R188). -/
def State.writeStage (s : State) (n : Nat) (l : List (Nat × Bytes)) : State :=
  let cells := l.foldl (fun m p => (indexed p.1 p.2).foldl (fun m c => Sparse.put m c.1 c.2) m) []
  s.each (runsOf cells) fun r s => s.writeMem (.stage n) r.1 r.2

/-- The element code in the bytes of one lane: the byte, or a nibble of it, or the whole number. -/
def codeIn (f odd v : Nat) : Nat := if fmtBits f = 4 then v / 16 ^ odd % 16 else v

/-- The bytes an element of format `f` takes; an OX4 element lies in one. -/
def elemSize (f : Nat) : Nat := max 1 (fmtBits f / 8)

/-- The accesses of contiguous elements from `addr`, for the lanes that pass `act`: lane `i` (element `i / per`)
lies at its element's bytes. -/
def contiguous (f per : Nat) (act : Nat → Bool) (addr : Nat) : List Acc :=
  ((List.range (128 / per)).filter fun j => act (per * j)).map fun j => (per * j, addr + j * fmtBits f / 8, elemSize f)

/-! Widening. -/

/-- The lanes that an element code widens to (R62): binary32, the binary64 of the same value, or the raw word. -/
def widenLane (f ty c : Nat) : Nat :=
  if ty = 1 then (if fmtType f = 7 then c else (F32.convert F64 0 (widen32 f c)).1)
  else if ty = 0 then widen32 f c else c % 2 ^ 32

/-- What an element gives a lane, with whether it came from a marked word or a poisoned group. -/
abbrev Fed := Nat × Bool

/-- What a marked word gives: 0x7FC0_0000 in every lane fed from it (Table 6.4). -/
def markedLane (ty : Nat) : Nat := if ty = 1 then 0x7FC000007FC00000 else 0x7FC00000

/-- Writes loaded elements to a register; a marked or poisoned one that an active lane takes raises POISON, and
the bundle completes with NUMERIC_POISON (R63, R187). -/
def State.vecLoad (s : State) (n x : Nat) (b : OpenBundle) (w ty : Nat) (e : Nat → Fed) : State :=
  let act := s.lane n x w
  let old := s.vecRead n x (vecVd w)
  let fed (j : Nat) : Nat × Nat := ((e j).1, if (e j).2 then flPoison else 0)
  let r := if ty = 1 then map64 act old fed else map32 act old fed
  let s := (s.vecWrite n x (vecVd w) r.1).raise n r.2
  if r.2 = 0 then s else s.note n x 0x20 b.off b.tag

/-- One plain element at an address of the context's region. -/
def State.plainAt (s : State) (n x f ty a odd : Nat) : Fed :=
  let p := (s.stageRegion n x).1 + a
  if s.marked (.stage n) p (elemSize f) then (markedLane ty, true)
  else (widenLane f ty (codeIn f odd (s.readNum (.stage n) p (elemSize f))), false)

/-! LDA and STA. -/

/-- The base entry of LDA and STA: ENTRY + SO[18:0] (R155). -/
def vecEntry (b : OpenBundle) (w : Nat) : Nat :=
  bits w 4 19 + bits (b.sreg (bits w 0 4 + 16 * bits w 23 1)) 0 19

/-- The physical entries of the active lanes. -/
def State.vecEntries (s : State) (n x : Nat) (b : OpenBundle) (w : Nat) : List (Nat × Nat) :=
  (s.activeLanes n x w).map fun i => (i, (s.accRegion n x).1 + vecEntry b w + i)

/-- Whether products in flight have written every entry that LDA or STA names (R92, R108), and an STA overtakes no
earlier DRAIN (R111) and writes no region that the Carousel holds (R278). -/
def State.accReady (s : State) (n x : Nat) (b : OpenBundle) (w : Nat) : Bool :=
  let l := (s.vecEntries n x b w).map (·.2)
  let k := (s.core n).nextXfer
  !s.accBusy n k l && (slotOp w = 0x2C || (!s.accHeld n k l && !s.regionHeld n l))

/-- The checks of LDA and STA at issue: R155, R208. -/
def State.checkEntries (s : State) (n x : Nat) (b : OpenBundle) (w : Nat) (f : State → State) : State :=
  let base := vecEntry b w
  if 524160 < base then s.slotFault n x b 5 0x02
  else if (s.activeLanes n x w).any fun i => decide ((s.accRegion n x).2 ≤ base + i) then s.slotFault n x b 5 0x03
  else f s

/-- LDA: entries into lanes; a marked entry reads as NaN (Table 6.4). -/
def State.vecLda (n x : Nat) (b : OpenBundle) (w : Nat) (s : State) : State :=
  s.checkEntries n x b w fun s =>
    let k := s.core n
    let p := (s.accRegion n x).1 + vecEntry b w
    s.vecLoad n x b w 0 fun i =>
      if Sparse.get false k.accPoison (p + i) then (markedLane 0, true) else ((Sparse.get 0 k.acc (p + i)).toNat, false)

/-- STA: lanes into entries. -/
def State.vecSta (n x : Nat) (b : OpenBundle) (w : Nat) (s : State) : State :=
  s.checkEntries n x b w fun s =>
    let v := s.vecRead n x (vecVd w)
    s.modCore n fun k => (s.vecEntries n x b w).foldl (fun k e =>
      { k with acc := Sparse.set 0 k.acc e.2 (BitVec.ofNat 32 (laneOf v e.1))
               accPoison := Sparse.del k.accPoison e.2 }) k

/-! LD and ST. -/

/-- The address of a memory form. -/
def vecAddr (b : OpenBundle) (w : Nat) : Nat := b.sreg (bits w 30 5)
/-- FMT. -/
def vecFmt (w : Nat) : Nat := bits w 7 8

/-- Lanes per element: two in binary64. -/
def lanesPer (w : Nat) : Nat := if vecTy w = 1 then 2 else 1

/-- Elements that a memory form moves. -/
def vecCount (w : Nat) : Nat := 128 / lanesPer w

/-- The groups of a block-scaled access. The 64 elements of a binary64 form begin a group of 128 whose other elements are
padding (R52; DESIGN CHOICE, log 154). -/
def vecGroups (w : Nat) : Nat := (vecCount w + fmtG (vecFmt w) - 1) / fmtG (vecFmt w)

/-- Whether element `j` of a memory form belongs to an active lane. -/
def State.vecLive (s : State) (n x w j : Nat) : Bool := decide (j < vecCount w) && s.lane n x w (lanesPer w * j)

/-- The lane that an element's access is recorded under: padding goes under the last. -/
def elemLane (w j : Nat) : Nat := min 127 (lanesPer w * j)

/-- The accesses of group `g` of a block-scaled form, lane by lane: the elements of its active lanes (of every lane, where
`all`), and, with the lowest active lane, its scale and side list; an LD takes nothing of a group with no active lane
(R105, R109). The slot names the element address alone, so the planes' addresses are open (log 19). -/
def State.groupAccs (s : State) (n x : Nat) (all : Bool) (b : OpenBundle) (w g : Nat) : List Acc :=
  let f := vecFmt w
  let js := (List.range (fmtG f)).map (g * fmtG f + ·)
  let lead := (js.find? (s.vecLive n x w)).or (if all then js.head? else none)
  js.flatMap fun j =>
    (if all || s.vecLive n x w j then [(elemLane w j, vecAddr b w + j * fmtBits f / 8, elemSize f)] else []) ++
      (if lead = some j then
        (elemLane w j, (Config.vecScaleAt f (vecAddr b w) g).toNat, 1) ::
          (if fmtE f = 0 then [] else [(elemLane w j, (Config.vecSideAt f (vecAddr b w) g).toNat, 4 * fmtE f)])
       else [])

/-- The accesses of a memory form with consecutive elements; `all` for a block-scaled store, which writes inactive lanes
too (R105, R108). -/
def State.formAccs (s : State) (n x : Nat) (all : Bool) (b : OpenBundle) (w : Nat) : List Acc :=
  let f := vecFmt w
  if fmtG f = 0 then contiguous f (lanesPer w) (s.lane n x w) (vecAddr b w)
  else (List.range (vecGroups w)).flatMap (s.groupAccs n x all b w)

/-- The accesses of LD. -/
def State.ldAccs (s : State) (n x : Nat) (b : OpenBundle) (w : Nat) : List Acc := s.formAccs n x false b w

/-- A read of stage bytes waits for the DINs and DRAINs that will write them (R149). -/
def State.readReady (s : State) (n x : Nat) (l : List Acc) : Bool :=
  !s.stageReadWaits n (s.core n).nextXfer (s.physical n x l)

/-- A write of stage bytes waits for earlier readers and writers of them (R111; DEDUCED, log 22). -/
def State.writeReady (s : State) (n x : Nat) (l : List Acc) : Bool :=
  !s.stageWriteWaits n (s.core n).nextXfer (s.physical n x l)

/-- The elements of a block-scaled LD (R108): each group with its scale and side list, as R49 and R51 say. -/
def State.blockAt (s : State) (n x f ty addr j : Nat) : Fed :=
  let g := j / fmtG f
  let base := (s.stageRegion n x).1
  let code (i : Nat) : Nat := codeIn f (i % 2) (s.readNum (.stage n) (base + addr + i * fmtBits f / 8) 1)
  let sa := base + (Config.vecScaleAt f addr g).toNat
  let la := base + (Config.vecSideAt f addr g).toNat
  let side := (List.range (fmtE f)).map fun e => s.readNum (.stage n) (la + 4 * e) 4
  let els := groupEls f (s.readNum (.stage n) sa 1) ((List.range (fmtG f)).map fun i => code (g * fmtG f + i)) side
    false
  if s.marked (.stage n) sa 1 || s.marked (.stage n) la (4 * fmtE f) ||
      s.marked (.stage n) (base + addr + j * fmtBits f / 8) 1 then (markedLane ty, true)
  else
    match els[j % fmtG f]? with
    | some e => (if ty = 1 then (F32.convert F64 0 e.widen).1 else e.widen, e.poison)
    | none => (0, false)

/-- LD. -/
def State.vecLd (n x : Nat) (b : OpenBundle) (w : Nat) (s : State) : State :=
  let f := vecFmt w
  match s.outside n x (s.ldAccs n x b w) with
  | some (lane, a) => s.vecDenied n x b lane a
  | none =>
    s.vecLoad n x b w (vecTy w) fun j =>
      if fmtG f = 0 then s.plainAt n x f (vecTy w) (vecAddr b w + j * fmtBits f / 8) (j % 2)
      else s.blockAt n x f (vecTy w) (vecAddr b w) j

/-- The binary32 that a lane of ST converts: binary64 is first rounded with RNE (R62). -/
def stInput (w : Nat) (v : List Nat) (j : Nat) : Nat :=
  if vecTy w = 1 then (F64.convert F32 0 (elem64 v j)).1 else laneOf v j

/-- The keys of ST's rounding (R59, R147). -/
def State.stMode (s : State) (n x : Nat) (b : OpenBundle) (w : Nat) : RMode :=
  if bit w 6 then .sr (s.ctx n x).seed.toNat (bits (b.sreg (bits w 15 5)) 0 32) b.step else .rne

/-- The logical index of element j: base + j × stride (R108). -/
def stIndex (b : OpenBundle) (w j : Nat) : Nat :=
  (bits (b.sreg (bits w 25 5)) 0 48 + lanesPer w * j * bits (b.sreg (bits w 20 5)) 0 32) % 2 ^ 48

/-- The accesses of ST: active lanes, or every lane and plane of a block-scaled form. -/
def State.stAccs (s : State) (n x : Nat) (b : OpenBundle) (w : Nat) : List Acc := s.formAccs n x true b w

/-- The bytes that a code takes at an address: for OX4, its nibble beside the other one. -/
def codeBytes (f odd old c : Nat) : Bytes :=
  if fmtBits f = 4 then leBytes 1 (putBits old (4 * odd) 4 c) else leBytes (fmtBits f / 8) c

/-- Converted elements written one by one, as (address in the region, code, which nibble). -/
def State.storeCodes (s : State) (n x f : Nat) (l : List (Nat × Nat × Nat)) : State :=
  let base := (s.stageRegion n x).1
  let writes := l.foldl (fun (m : List (Nat × Byte)) p =>
    let old := match Sparse.get? m (base + p.1) with
      | some v => v.toNat
      | none => s.readNum (.stage n) (base + p.1) 1
    (indexed (base + p.1) (codeBytes f p.2.2 old p.2.1)).foldl (fun m c => Sparse.put m c.1 c.2) m) []
  s.each (runsOf writes) fun r s => s.writeMem (.stage n) r.1 r.2

/-- What follows a conversion: its flags, NUMERIC_POISON for a poisoned group, its statistics (R63, R66). -/
def State.converted (s : State) (n x : Nat) (b : OpenBundle) (flags slot : Nat) (t : Stat) : State :=
  let s := (s.raise n flags).mergeStat (s.ctx n x).act slot b.step t
  if flags &&& flPoison ≠ 0 then s.note n x 0x20 b.off b.tag else s

/-- ST of a plain format: the active lanes' elements. -/
def State.stPlain (s : State) (n x : Nat) (b : OpenBundle) (w : Nat) : State :=
  let f := vecFmt w
  let v := s.vecRead n x (vecVd w)
  let js := (List.range (vecCount w)).filter fun j => s.lane n x w (lanesPer w * j)
  let md := s.stMode n x b w
  let raw := decide (2 ≤ vecTy w) || fmtType f = 7
  let r := js.map fun j =>
    if raw then (j, (if fmtType f = 7 then elem64 v j else laneOf v j), 0)
    else
      let c := toShort f md (stIndex b w j) 0xA0 (stInput w v j)
      (j, c.1, c.2)
  let xs := if raw then [] else js.map (stInput w v)
  let s := s.storeCodes n x f (r.map fun p => (vecAddr b w + p.1 * fmtBits f / 8, p.2.1, p.1 % 2))
  if js = [] ∨ raw then s
  else s.converted n x b (r.foldl (fun a p => a ||| p.2.2) 0) (bits (b.sreg (bits w 15 5)) 32 12)
    (statOf xs (r.filter fun p => p.2.2 % 2 = 1).length)

/-- What converted groups write to their scale and side-list planes, beside elements at `addr`. -/
def planeWrites (f base addr : Nat) (gs : List (Nat × Group)) : List (Nat × Bytes) :=
  gs.flatMap fun p =>
    (base + (Config.vecScaleAt f addr p.1).toNat, leBytes 1 p.2.scale) ::
      (if fmtE f = 0 then [] else [(base + (Config.vecSideAt f addr p.1).toNat, p.2.side.flatMap (leBytes 4))])

/-- ST of a block-scaled format: each run of G lanes is one group, inactive lanes entering as +0 (R108). Its lanes are one
stored row, so under the square-grouping option it has one row of each square, and the square's scale and escapes are
those of its groups (R87; DESIGN CHOICE, log 150). -/
def State.stBlock (s : State) (n x : Nat) (b : OpenBundle) (w : Nat) : State :=
  let f := vecFmt w
  let v := s.vecRead n x (vecVd w)
  let md := s.stMode n x b w
  let base := (s.stageRegion n x).1
  let live (j : Nat) : Bool := s.vecLive n x w j
  let groups := (List.range (vecGroups w)).map fun g =>
    (g, convertGroup f md none (fun i => stIndex b w (g * fmtG f + i))
      ((List.range (fmtG f)).map fun i => if live (g * fmtG f + i) then stInput w v (g * fmtG f + i) else 0))
  let s := s.storeCodes n x f (groups.flatMap fun p => (indexed (p.1 * fmtG f) p.2.codes).map fun c =>
    (vecAddr b w + c.1 * fmtBits f / 8, (if live c.1 then c.2 else 0), c.1 % 2))
  let s := s.writeStage n (planeWrites f base (vecAddr b w) groups)
  let js := (List.range (vecCount w)).filter live
  if js = [] then s
  else s.converted n x b (groups.foldl (fun a p => a ||| p.2.flags) 0) (bits (b.sreg (bits w 15 5)) 32 12)
    (statOf (js.map (stInput w v)) (groups.foldl (fun a p => a + p.2.sats) 0))

/-- ST. -/
def State.vecSt (n x : Nat) (b : OpenBundle) (w : Nat) (s : State) : State :=
  match s.outside n x (s.stAccs n x b w) with
  | some (lane, a) => s.vecDenied n x b lane a
  | none => if fmtG (vecFmt w) = 0 then s.stPlain n x b w else s.stBlock n x b w

/-! LDX and STC, GATHER and SCATTER. -/

/-- The accesses of LDX and STC: the active lanes in order, at consecutive 32-bit elements (R112). -/
def State.packedAccs (s : State) (n x : Nat) (b : OpenBundle) (w : Nat) : List Acc :=
  (indexed 0 (s.activeLanes n x w)).map fun p => (p.2, vecAddr b w + 4 * p.1, 4)

/-- The pointer advances by 4c (R112). -/
def State.advance (s : State) (n x : Nat) (b : OpenBundle) (w c : Nat) : State :=
  if c = 0 then s else s.setSreg n x (bits w 30 5) ((vecAddr b w + 4 * c) % 2 ^ 64)

/-- LDX. -/
def State.vecLdx (n x : Nat) (b : OpenBundle) (w : Nat) (s : State) : State :=
  let l := s.packedAccs n x b w
  match s.outside n x l with
  | some (lane, a) => s.vecDenied n x b lane a
  | none =>
    (s.vecLoad n x b w 0 fun i =>
      match l.find? fun a => a.1 = i with
      | some a => s.plainAt n x 0x60 0 a.2.1 0
      | none => (0, false)).advance n x b w l.length

/-- STC. -/
def State.vecStc (n x : Nat) (b : OpenBundle) (w : Nat) (s : State) : State :=
  let l := s.packedAccs n x b w
  let v := s.vecRead n x (vecVd w)
  match s.outside n x l with
  | some (lane, a) => s.vecDenied n x b lane a
  | none =>
    (s.storeCodes n x 0x60 (l.map fun a => (a.2.1, laneOf v a.1, 0))).advance n x b w l.length

/-- The accesses of GATHER and SCATTER: base + index × element size (R108). -/
def State.indexAccs (s : State) (n x : Nat) (b : OpenBundle) (w : Nat) : List Acc :=
  let ix := s.vecRead n x (vecVa w)
  (s.activeLanes n x w).map fun i =>
    (i, vecAddr b w + laneOf ix i * elemSize (vecFmt w), elemSize (vecFmt w))

/-- GATHER. -/
def State.vecGather (n x : Nat) (b : OpenBundle) (w : Nat) (s : State) : State :=
  let l := s.indexAccs n x b w
  match s.outside n x l with
  | some (lane, a) => s.vecDenied n x b lane a
  | none =>
    s.vecLoad n x b w 0 fun i =>
      match l.find? fun a => a.1 = i with
      | some a => s.plainAt n x (vecFmt w) (vecTy w) a.2.1 0
      | none => (0, false)

/-- SCATTER: binary32 lanes round to nearest even (DEDUCED, log 15); of two lanes with one address the
higher-numbered stands. -/
def State.vecScatter (n x : Nat) (b : OpenBundle) (w : Nat) (s : State) : State :=
  let l := s.indexAccs n x b w
  let f := vecFmt w
  let v := s.vecRead n x (vecVd w)
  match s.outside n x l with
  | some (lane, a) => s.vecDenied n x b lane a
  | none =>
    let r := l.map fun a =>
      if 2 ≤ vecTy w then (a.2.1, laneOf v a.1, 0)
      else
        let c := toShort f .rne 0 0xA0 (laneOf v a.1)
        (a.2.1, c.1, c.2)
    (s.storeCodes n x f (r.map fun p => (p.1, p.2.1, 0))).raise n (r.foldl (fun a p => a ||| p.2.2) 0)

/-- What a VEC memory form will touch. Behind another operation of the queue, which may change its indices or its mask, it is
taken to touch its whole region. -/
def State.vecFoot (s : State) (n x : Nat) (b : OpenBundle) (w : Nat) (behind : Bool) : Foot :=
  let op := slotOp w
  let store := op % 2 = 1
  let acc := [((s.accRegion n x).1 + vecEntry b w, 128)]
  if op = 0x2C then ⟨[], [], acc, []⟩
  else if op = 0x2D then ⟨[], [], [], acc⟩
  else if behind then s.wholeFoot n x true store false
  else
    let l := s.physical n x (if op = 0x30 then s.ldAccs n x b w else if op = 0x31 then s.stAccs n x b w
      else if op = 0x32 ∨ op = 0x33 then s.packedAccs n x b w else s.indexAccs n x b w)
    if store then ⟨[], l, [], []⟩ else ⟨l, [], [], []⟩

/-- A VEC memory form: it runs once `ready`; an uncorrectable error in a buffer that it reads fences the core, and
nothing from the read is used (R179). -/
def State.vecMem (s : State) (n x op : Nat) (ue : Bool) (ready : State → OpenBundle → Nat → Bool)
    (eff : OpenBundle → Nat → State → State) : State :=
  s.onUnit n x 5 op ready (fun s b w behind => s.vecFoot n x b w behind) (State.unlessUe n x ue eff)

/-! Meanings. -/

/-- LDA. -/
def execLda (core ctx : Nat) (ue : Bool) (s : State) : Host.Outcome State Fault Refusal :=
  whenUnits s (okCore core && okCtx ctx)
    (s.vecMem core ctx 0x2C ue (fun s b w => s.accReady core ctx b w) (State.vecLda core ctx))
/-- STA. -/
def execSta (core ctx : Nat) (s : State) : Host.Outcome State Fault Refusal :=
  whenUnits s (okCore core && okCtx ctx)
    (s.vecMem core ctx 0x2D false (fun s b w => s.accReady core ctx b w) (State.vecSta core ctx))
/-- LD. -/
def execLd (core ctx : Nat) (ue : Bool) (s : State) : Host.Outcome State Fault Refusal :=
  whenUnits s (okCore core && okCtx ctx)
    (s.vecMem core ctx 0x30 ue (fun s b w => s.readReady core ctx (s.ldAccs core ctx b w))
      (State.vecLd core ctx))
/-- ST. -/
def execSt (core ctx : Nat) (s : State) : Host.Outcome State Fault Refusal :=
  whenUnits s (okCore core && okCtx ctx)
    (s.vecMem core ctx 0x31 false (fun s b w => s.writeReady core ctx (s.stAccs core ctx b w))
      (State.vecSt core ctx))
/-- LDX. -/
def execLdx (core ctx : Nat) (ue : Bool) (s : State) : Host.Outcome State Fault Refusal :=
  whenUnits s (okCore core && okCtx ctx)
    (s.vecMem core ctx 0x32 ue (fun s b w => s.readReady core ctx (s.packedAccs core ctx b w))
      (State.vecLdx core ctx))
/-- STC. -/
def execStc (core ctx : Nat) (s : State) : Host.Outcome State Fault Refusal :=
  whenUnits s (okCore core && okCtx ctx)
    (s.vecMem core ctx 0x33 false (fun s b w => s.writeReady core ctx (s.packedAccs core ctx b w))
      (State.vecStc core ctx))
/-- GATHER. -/
def execGather (core ctx : Nat) (ue : Bool) (s : State) : Host.Outcome State Fault Refusal :=
  whenUnits s (okCore core && okCtx ctx)
    (s.vecMem core ctx 0x34 ue (fun s b w => s.readReady core ctx (s.indexAccs core ctx b w))
      (State.vecGather core ctx))
/-- SCATTER. -/
def execScatter (core ctx : Nat) (s : State) : Host.Outcome State Fault Refusal :=
  whenUnits s (okCore core && okCtx ctx)
    (s.vecMem core ctx 0x35 false (fun s b w => s.writeReady core ctx (s.indexAccs core ctx b w))
      (State.vecScatter core ctx))

end Sys2Proof.Machine
end

