-- ==== Sys2Proof/Machine/Transfers.lean ====
section
/-! DEFINITION. The transfer slots: DIN COPY, DOUT COPY and DRAIN (R148 to R150, R180 to R185), the transfers in
flight and the far requests they make (R176, R190), and the sideshow partition of the stage buffer (R172). -/

namespace Sys2Proof.Machine

/-! Checks at issue. -/

/-- Whether one range lies where a stream may touch it: inside the memory, and, for the acts that are checked, inside
one window of the act (R172, R173, R174, R180, R189, R344). `size` is the context's stage region. The bits of EXT above a
space's own address field count as address bits, but for SPACE 3, where they are ignored (DESIGN CHOICE, log 161). -/
def State.rangeOk (s : State) (act : Nat) (checked : Bool) (size space : Nat) (write : Bool) (r : Nat × Nat) : Bool :=
  match space with
  | 0 => decide (r.1 + r.2 ≤ nearSize) && !s.nearAbsent r.1 r.2 && (!checked || s.nearWindow act r.1 r.2 write)
  | 1 => decide (r.1 + r.2 ≤ 2 ^ 26) && (!checked || s.dieWindow act r.1 r.2)
  | 2 => decide (r.1 + r.2 ≤ size)
  | 3 => true
  | p => decide (r.1 + r.2 ≤ s.farCap (p - 4)) && (!checked || s.farWindow (p - 4) act r.1 r.2)

/-- Whether R180 checks the transfers of a context: streams of acts 1 to 8 in SERVICE context. -/
def SeqCtx.windowed (c : SeqCtx) : Bool := c.kind = 1 && c.act ≠ 0

/-- The SPACE-side rows of a COPY. -/
def Desc.extRows (d : Desc) : List (Nat × Nat) := strided d.ext d.extPitch d.rowBytes d.rows
/-- The local-side rows of a COPY. -/
def Desc.localRows (d : Desc) : List (Nat × Nat) := strided d.local_ d.localPitch d.rowBytes d.rows
/-- The space of the local side. -/
def Desc.localSpace (d : Desc) : Nat := if d.lsp then 1 else 2

/-- The faults of a COPY descriptor (R180, R182). -/
def State.copyFaults (s : State) (act : Nat) (checked : Bool) (size space : Nat) (din : Bool) (d : Desc) : List Nat :=
  let loose := (space ≠ 3 && (d.ext % 64 ≠ 0 || d.extPitch % 64 ≠ 0)) || d.local_ % 64 ≠ 0 || d.localPitch % 64 ≠ 0
  let meets := space = d.localSpace && listsHit d.extRows d.localRows
  (if loose || d.copyReserved || meets then [0x02] else []) ++
    (if (d.localRows.all (s.rangeOk act checked size d.localSpace din)) &&
        (space = 3 || d.extRows.all (s.rangeOk act checked size space !din)) then [] else [0x03]) ++
    (if space = 3 then s.queueFaults act (d.ext % 2 ^ 16) (d.rows * d.rowBytes) din else [])

/-- The faults of a DRAIN descriptor (R180, R185, R208). `acc` is the context's accumulator region, `ok` the check of
one written range, `rows` that of the statistics it asks for. -/
def drainFaults (d : Desc) (w acc : Nat) (ok rows : Nat × Nat → Bool) : List Nat :=
  let f := drainFmt w
  let g := fmtG f
  let e := bits w 26 19
  let last := d.col0 + d.tileCols
  let bad := 524288 < e + d.tileRows * d.tileCols || d.len < last ||
    2 ^ 48 ≤ (d.row0 + d.tileRows - 1) * d.len + last - 1 ||
    (g ≠ 0 && (d.col0 % g ≠ 0 || (d.tileCols % g ≠ 0 && last ≠ d.len))) || d.base % 64 ≠ 0 ||
    bits d.w3.toNat 56 8 ≠ 0
  let out := !((drainRanges d f (bit w 8)).all ok) || acc < e + d.tileRows * d.tileCols ||
    (bit w 9 && !rows (8 * d.rstat + 8 * d.row0, 8 * d.tileRows))
  (if bad then [0x02] else []) ++ if out then [0x03] else []

/-- The faults of a transfer's descriptor address (R181, R182). -/
def addrFaults (a size : Nat) : List Nat :=
  (if a % 32 = 0 then [] else [0x02]) ++ if a + 32 ≤ size then [] else [0x03]

/-! Far requests. -/

/-- The far port of a SPACE. -/
def farPort? (space : Nat) : Option Nat := if 4 ≤ space then some (space - 4) else none

/-- The faults of a chained descriptor: its place in the context's region, then its own (R181 to R183). `off` is where it
stands from the first. -/
def State.chainFaults (s : State) (n : Nat) (t : Xfer) (off : Nat) (d : Desc) : List Nat :=
  let size := (s.stageRegion n t.ctx).2
  if size < t.at_ - t.sbase + off + 32 then [0x03]
  else s.copyFaults t.act t.checked size t.space (t.kind = .din) d

/-- The descriptors that the engine has read and found good: the first, which was checked at issue, and the chained ones up to
the first that fails, once no transfer in flight will write them (R183). -/
def State.goodDescs (s : State) (n : Nat) (t : Xfer) : List Desc :=
  let chained := (List.range t.chain).map fun i => (32 * (i + 1), s.readDesc n (t.at_ + 32 * (i + 1)))
  t.desc ::
    (if s.stageReadWaits n t.idx [(t.at_ + 32, 32 * t.chain)] then []
     else (chained.takeWhile fun p => s.chainFaults n t p.1 p.2 = []).map (·.2))

/-- The SPACE-side ranges of the descriptors that a transfer has read. -/
def State.xferExt (s : State) (n : Nat) (t : Xfer) : List (Nat × Nat) :=
  (s.goodDescs n t).flatMap fun d =>
    if t.kind = .drain then drainRanges d (drainFmt t.slot.toNat) (bit t.slot.toNat 8) else d.extRows

/-- The 64-byte units of ranges, in order. -/
def unitsOf (l : List (Nat × Nat)) : List Nat :=
  l.flatMap fun r => (List.range ((r.1 + r.2 + 63) / 64 - r.1 / 64)).map fun i => r.1 / 64 + i

/-- Sets FAR.OUTST from the requests outstanding. -/
def State.showOutst (s : State) (p : Nat) : State :=
  let c := (Sparse.get [] s.farReqs p).length
  let s := s.setFld (Reg.farOutst p) Fld.farOutstOutstanding c
  s.setFld (Reg.farOutst p) Fld.farOutstPeak (max c (s.fld (Reg.farOutst p) Fld.farOutstPeak))

/-- Makes far requests for one transfer while its port holds fewer than 1,024 (R190). A DRAIN's requests follow its
conversion. -/
def State.farPump (s : State) (n : Nat) (t : Xfer) : State :=
  match farPort? t.space with
  | none => s
  | some p =>
    if t.kind = .drain ∧ t.converted = false then s
    else
      let reqs := Sparse.get [] s.farReqs p
      let more := ((unitsOf (s.xferExt n t)).drop t.farNext).take (1024 - reqs.length)
      let new := more.map fun u =>
        ({ addr := 64 * u, write := t.kind ≠ .din, owner := .xfer n t.idx, deadline := s.now + 100000 } : FarReq)
      let s := { s with farReqs := Sparse.put s.farReqs p (reqs ++ new) }
      let s := s.modCore n fun k =>
        { k with xfers := k.xfers.map fun u =>
            if u.idx = t.idx then { u with farNext := u.farNext + more.length } else u }
      s.showOutst p

/-- Makes the far requests that wait at a port and are no transfer's, while it holds fewer than 1,024 (R190, R191). -/
def State.farPumpAsks (s : State) (p : Nat) : State :=
  let reqs := Sparse.get [] s.farReqs p
  let asks := Sparse.get [] s.farAsks p
  let new := (asks.take (1024 - reqs.length)).map fun r => { r with deadline := s.now + 100000 }
  State.showOutst { s with farReqs := Sparse.put s.farReqs p (reqs ++ new)
                           farAsks := Sparse.put s.farAsks p (asks.drop (1024 - reqs.length)) } p

/-- The far requests of an agent that is no transfer, for a range of a space; none where it is not far memory (R191). -/
def State.askFar (s : State) (sp : Space) (a len : Nat) (write : Bool) (owner : FarOwner) : State :=
  match sp with
  | .far p =>
    let new := (unitsOf [(a, len)]).map fun u => ({ addr := 64 * u, write := write, owner := owner, deadline := 0 } : FarReq)
    State.farPumpAsks { s with farAsks := Sparse.put s.farAsks p (Sparse.get [] s.farAsks p ++ new) } p
  | _ => s

/-- Makes far requests for every source that waits to: the transfers, then the other agents (log 110). -/
def State.farPumpAll (s : State) (p : Nat) : State :=
  (s.each (s.cores.map (·.1)) fun n s =>
    s.each ((s.core n).xfers.filter fun t => farPort? t.space = some p) fun t s => s.farPump n t).farPumpAsks p

/-- Whether a transfer's far requests have all been made and answered. -/
def State.farSettled (s : State) (n : Nat) (t : Xfer) : Bool :=
  match farPort? t.space with
  | none => true
  | some p =>
    decide ((unitsOf (s.xferExt n t)).length ≤ t.farNext) &&
      (Sparse.get [] s.farReqs p).all fun r => r.owner ≠ .xfer n t.idx

/-! Issue. -/

/-- A transfer enters flight (R139). -/
def State.pushXfer (s : State) (n : Nat) (t : Xfer) : State :=
  (s.modCore n fun k => { k with xfers := k.xfers ++ [t], nextXfer := k.nextXfer + 1 }).farPump n t

/-- The transfer that a slot of an open bundle issues. -/
def State.newXfer (s : State) (n x : Nat) (b : OpenBundle) (w : Nat) (kind : XKind) (a : Nat) : Xfer :=
  let c := s.ctx n x
  let r := s.stageRegion n x
  let d := s.readDesc n (r.1 + a)
  let space := bits w 50 3
  { idx := (s.core n).nextXfer, kind := kind, ctx := x, act := c.act, checked := c.windowed, off := b.off,
    word := b.word, tag := b.tag, step := b.step, seed := c.seed, sbase := r.1, abase := (s.accRegion n x).1,
    space := space, packed := kind ≠ .drain && bit w 44, landed := [], at_ := r.1 + a, desc := d,
    chain := if kind = .drain ∨ space = 3 then 0 else d.chain, slot := BitVec.ofNat 64 w,
    sc := BitVec.ofNat 64 (b.sreg (bits w 10 5)), converted := false, sent := false, farNext := 0, farBad := [] }

/-- The descriptor's address: the scalar SD. -/
def descAddr (b : OpenBundle) (w : Nat) : Nat := b.sreg (bits w 45 5)

/-- The descriptor is read at issue, so issue waits for the DIN or DRAIN that will write it (R149). -/
def State.descReady (s : State) (n x : Nat) (b : OpenBundle) (w : Nat) : Bool :=
  !s.stageReadWaits n (s.core n).nextXfer [((s.stageRegion n x).1 + descAddr b w, 32)]

/-- Issues a transfer whose checks pass, or faults the bundle (R166, R182, R185). -/
def State.issueXfer (n x slot : Nat) (kind : XKind) (b : OpenBundle) (w : Nat) (s : State) : State :=
  let a := descAddr b w
  let size := (s.stageRegion n x).2
  let c := s.ctx n x
  let faults :=
    if addrFaults a size ≠ [] then addrFaults a size
    else
      let t := s.newXfer n x b w kind a
      match kind with
      | .drain => drainFaults t.desc w (s.accRegion n x).2
          (s.rangeOk c.act c.windowed size t.space true) (s.rangeOk c.act c.windowed size 0 true)
      | .din => s.copyFaults c.act c.windowed size t.space true t.desc
      | .dout => s.copyFaults c.act c.windowed size t.space false t.desc
  if faults = [] then s.pushXfer n (s.newXfer n x b w kind a) else s.slotFaultsAt n x b slot faults

/-! Moving bytes. -/

/-- The memory behind a SPACE for a core. -/
def spaceOf (n space : Nat) : Space :=
  match space with
  | 0 => .near
  | 1 => .die (coreDie n)
  | 2 => .stage n
  | 3 => .host
  | p => .far (p - 4)

/-- The bytes that one poison mark of a memory covers (R187). -/
def granule (sp : Space) : Nat := match sp with | .near => 64 | .far _ => 64 | _ => 8

/-- The parts of the `n` bytes at `a` that lie in marked units or words, or in the far units named in `bad`, as
(offset, length). -/
def State.markedParts (s : State) (sp : Space) (bad : List Nat) (a n : Nat) : List (Nat × Nat) :=
  if !s.marked sp a n && bad = [] then []
  else
    let g := granule sp
    (List.range ((a + n + g - 1) / g - a / g)).filterMap fun i =>
      let lo := max a (g * (a / g + i))
      let hi := min (a + n) (g * (a / g + i + 1))
      if s.marked sp lo (hi - lo) || bad.contains (lo / 64 * 64) then some (lo - a, hi - lo) else none

/-- Writes one row, then marks every destination unit or word that overlaps a marked source part (Table 6.4). -/
def State.putRow (s : State) (sp : Space) (a : Nat) (bs : Bytes) (parts : List (Nat × Nat)) : State :=
  (s.writeMem sp a bs).each parts fun p s => s.markMem sp (a + p.1) p.2

/-- Whether the context still holds the stream that issued a transfer. -/
def State.stillBound (s : State) (n x : Nat) : Bool := (s.ctx n x).queue.isSome

/-- NUMERIC_POISON for the transfer's bundle (R187). -/
def State.xferPoison (s : State) (n : Nat) (t : Xfer) : State := if s.stillBound n t.ctx then s.note n t.ctx 0x20 t.off t.tag else s

/-- An execution fault of a transfer's bundle (R166). -/
def State.xferFault (s : State) (n : Nat) (t : Xfer) (status : Nat) : State :=
  if s.stillBound n t.ctx then
    s.execFault n t.ctx (if t.kind = .din then 1 else 2) status t.word t.off t.tag
  else s

/-- The bytes that a row writes at `a`: where the transfer has released a block already, those that stand there (R184). -/
def State.keepLanded (s : State) (n : Nat) (t : Xfer) (a : Nat) (bs : Bytes) : Bytes :=
  if t.landed = [] then bs
  else
    (indexed a bs).map fun c =>
      if t.landed.any fun r => decide (r.1 ≤ c.1) && decide (c.1 < r.1 + r.2) then
        ((s.readMem (.stage n) c.1 1).head?).getD c.2
      else c.2

/-- The rows of a COPY on the destination side, each with its bytes and marked parts, as read. -/
def State.copyRows (s : State) (n : Nat) (t : Xfer) (d : Desc) : List ((Nat × Bytes) × List (Nat × Nat)) :=
  let shift (space : Nat) := if space = 2 then t.sbase else 0
  let lsp := d.localSpace
  let src := if t.kind = .din then (spaceOf n t.space, shift t.space, d.extRows)
    else (spaceOf n lsp, shift lsp, d.localRows)
  let dst := if t.kind = .din then (shift lsp, d.localRows) else (shift t.space, d.extRows)
  (src.2.2.zip dst.2).map fun p =>
    let a := src.2.1 + p.1.1
    ((dst.1 + p.2.1, s.keepLanded n t (dst.1 + p.2.1) (s.readMem src.1 a p.1.2)),
      s.markedParts src.1 (if t.kind = .din then t.farBad else []) a p.1.2)

/-! Near requests. -/

/-- Near requests that stack controller `t` takes: the requests outstanding, 512 at most, and their peak (R176, Table 6.7). -/
def State.takeRequests (s : State) (t k : Nat) : State :=
  let c := min 512 (s.fld (Reg.memStk1 t) Fld.memStk1Outstanding + k)
  (s.setFld (Reg.memStk1 t) Fld.memStk1Outstanding c).setFld (Reg.memStk1 t) Fld.memStk1Peak
    (max c (s.fld (Reg.memStk1 t) Fld.memStk1Peak))

/-- The requests into which the near side of a transfer is cut, to the stack controllers that take them: 1,024 bytes each, at
multiples of 1,024 (R176; the cut and that those past 512 follow as others are answered are DESIGN CHOICES, log 109). -/
def State.nearTraffic (s : State) (l : List (Nat × Nat)) : State :=
  let units := l.flatMap fun r =>
    (List.range ((r.1 + r.2 + 1023) / 1024 - r.1 / 1024)).map fun i => s.stackOf (1024 * (r.1 / 1024 + i))
  s.each (List.range 32) fun t s =>
    let k := units.countP fun u => u = t
    if k = 0 then s else s.takeRequests t k

/-- Moves one descriptor's rows, in order. -/
def State.moveDesc (s : State) (n : Nat) (t : Xfer) (d : Desc) : State :=
  let s := if t.space = 0 then s.nearTraffic d.extRows else s
  let rows := s.copyRows n t d
  let sp := spaceOf n (if t.kind = .din then d.localSpace else t.space)
  let s := s.each rows fun r s => s.putRow sp r.1.1 r.1.2 r.2
  if rows.all fun r => r.2 = [] then s else s.xferPoison n t

/-- Marks the far units whose writes came to nothing (R190). -/
def State.farUnknown (s : State) (t : Xfer) : State :=
  match farPort? t.space with
  | some p => if t.kind = .din then s else s.each t.farBad fun a s => s.markMem (.far p) a 64
  | none => s

/-- Keeps the list of places where packed transfers end (R184): a DIN takes away the ends strictly inside the rows
it wrote, and a packed one adds the end of its last row. -/
def State.notePacked (s : State) (n : Nat) (t : Xfer) (d : Desc) : State :=
  if t.kind = .din ∧ d.lsp = false then
    let rows := shiftRanges t.sbase d.localRows
    s.modCore n fun k =>
      let kept := k.packEnds.filter fun e => !(rows.any fun r => decide (r.1 < e) && decide (e < r.1 + r.2))
      let ends := if t.packed then (rows.getLast?.map fun r => r.1 + r.2).toList else []
      { k with packEnds := kept.filter (fun e => !ends.contains e) ++ ends }
  else s

/-- Takes a transfer out of flight; one that waited to read its chained descriptors makes its next far requests (R183). -/
def State.dropXfer (s : State) (n idx : Nat) : State :=
  let s := (s.stirred n).modCore n fun k => { k with xfers := k.xfers.filter fun t => t.idx ≠ idx }
  s.each ((s.core n).xfers.filter fun t => (farPort? t.space).isSome && t.chain ≠ 0) fun t s => s.farPump n t

/-- Runs the descriptors of a COPY in order, `off` bytes from the first on; a chained descriptor that fails a check ends the
transfer there (R183). The first was checked at issue. -/
def State.runDescs (n : Nat) (t : Xfer) : Nat → List Desc → State → State
  | _, [], s => s
  | off, d :: ds, s =>
    let faults := if off = 0 then [] else s.chainFaults n t off d
    if faults = [] then State.runDescs n t (off + 32) ds ((s.moveDesc n t d).notePacked n t d)
    else s.xferFault n t (statusOf faults)

/-! Order. -/

/-- The addresses outside the stage buffer that a transfer will write, with their space: a DRAIN writes its statistics slot
and row statistics too (R66 to R68, R149). -/
def State.extWrites (s : State) (n : Nat) (t : Xfer) : List (Nat × Nat × Nat) :=
  (s.xferDescs n t).flatMap fun d =>
    match t.kind with
    | .din => if d.lsp then d.localRows.map fun r => (1, r) else []
    | .dout => if t.space = 2 ∨ t.space = 3 then [] else d.extRows.map fun r => (t.space, r)
    | .drain =>
      if t.converted then []
      else
        (if t.space = 2 then [] else (drainRanges d (drainFmt t.slot.toNat) (bit t.slot.toNat 8)).map fun r => (t.space, r)) ++
          (if bit t.slot.toNat 9 then [(0, 8 * d.rstat + 8 * d.row0, 8 * d.tileRows)] else []) ++
          (s.statEntry t.act (bits t.sc.toNat 32 12)).toList.map fun a => (0, a, 16)

/-- Whether an earlier transfer of the core has still to write an address that this one writes (R149). -/
def State.extWaits (s : State) (n : Nat) (t : Xfer) : Bool :=
  let mine := s.extWrites n t
  (s.core n).xfers.any fun u =>
    decide (u.idx < t.idx) && (s.extWrites n u).any fun a => mine.any fun b => a.1 = b.1 && rangesHit a.2 b.2

/-- Whether the scoreboard lets a transfer's bytes move (R149). -/
def State.xferReady (s : State) (n : Nat) (t : Xfer) : Bool :=
  !s.stageReadWaits n t.idx (s.xferStageReads n t) && !s.stageWriteWaits n t.idx (s.xferStageWrites n t) &&
    !s.extWaits n t && s.farSettled n t

/-! Packed transfers. -/

/-- Writes the bytes that a packed COPY brings to `len` stage bytes at `a`, with their marks, and notes them as released. -/
def State.landRange (s : State) (n : Nat) (t : Xfer) (a len : Nat) : State :=
  let rows := (s.goodDescs n t).flatMap fun d => if d.lsp then [] else s.copyRows n t d
  let s := s.each rows fun r s =>
    let lo := max a r.1.1
    let hi := min (a + len) (r.1.1 + r.1.2.length)
    let o := lo - r.1.1
    if hi ≤ lo then s
    else s.putRow (.stage n) lo ((r.1.2.drop o).take (hi - lo))
      (r.2.filterMap fun m =>
        let b := max o m.1
        let e := min (o + (hi - lo)) (m.1 + m.2)
        if e ≤ b then none else some (b - o, e - b))
  s.modCore n fun k =>
    { k with packEnds := k.packEnds.filter fun e => !(decide (a < e) && decide (e < a + len))
             xfers := k.xfers.map fun u => if u.idx = t.idx then { u with landed := u.landed ++ [(a, len)] } else u }

/-- The packed DIN in flight, issued before `idx`, that brings some stage bytes and may write them now. -/
def State.packedDin (s : State) (n idx : Nat) (r : Nat × Nat) : Option Xfer :=
  (s.core n).xfers.find? fun t =>
    t.packed && t.kind = .din && t.space ≠ 3 && decide (t.idx < idx) && s.xferReady n t &&
      cutRanges (s.xferStageWrites n t) [r] = []

/-- Releases the block at stage address `a` that a packed DIN in flight brings: its header as it arrives, then the whole
block; one that runs past the transfer's last byte waits for the transfer's end (R184). -/
def State.landBlock (s : State) (n idx a : Nat) : State :=
  match s.packedDin n idx (a, 32) with
  | none => s
  | some t =>
    let u := s.landRange n t a 32
    let len := 32 + (parseHdr (u.readMem (.stage n) a 32)).packed
    if cutRanges (s.xferStageWrites n t) [(a, len)] = [] then s.landRange n t a len else s

/-! Copy messages. -/

/-- The queue of a copy-queue transfer. -/
def Xfer.queue (t : Xfer) : Nat := t.desc.ext % 2 ^ 16

/-- Sends a DOUT's message once its queue runs and the DOUTs before it have sent theirs (R236, R238); a send that a
device-to-host end has already written is dropped (R239). -/
def State.sendDout (s : State) (n : Nat) (t : Xfer) : State :=
  let q := t.queue
  let earlier := (s.core n).xfers.any fun u =>
    u.kind = .dout && u.space = 3 && decide (u.idx < t.idx) && u.queue = q && !u.sent
  if earlier ∨ s.qTaking q = false ∨ s.doutEnd q = false then s
  else
    let sp := spaceOf n t.desc.localSpace
    let base := if t.desc.lsp then 0 else t.sbase
    let parts := (indexed 0 t.desc.localRows).flatMap fun r =>
      (s.markedParts sp [] (base + r.2.1) r.2.2).map fun p => (r.1 * t.desc.rowBytes + p.1, p.2)
    let data := t.desc.localRows.flatMap fun r => s.readMem sp (base + r.1) r.2
    let s := s.sendCopy q t.off data parts
    let s := if parts = [] then s else s.xferPoison n t
    s.modCore n fun k => { k with xfers := k.xfers.map fun u => if u.idx = t.idx then { u with sent := true } else u }

/-- What TRANSFER_DONE does with a copy-queue DOUT: it sends, and leaves flight once the message has been taken. -/
def State.doneDout (s : State) (n : Nat) (t : Xfer) : State :=
  let s := if t.sent then s else s.sendDout n t
  let sent := (s.core n).xfers.any fun u => u.idx = t.idx && u.sent
  if sent && !s.copyPending t.queue t.off then s.dropXfer n t.idx else s

/-- TRANSFER_DONE: the transfer writes its last byte and leaves flight, once the scoreboard lets it (R139, R149). An
uncorrectable error in its stage-buffer reads fences the core (R179). -/
def State.xferDone (s : State) (n : Nat) (t : Xfer) (ue : Bool) : State :=
  if ue && t.kind ≠ .drain && s.xferReady n t then s.fenceCore n 2 (EvRec.by_ t.ctx t.off t.tag)
  else if t.kind = .drain then
    if t.converted && s.farSettled n t then (s.farUnknown t).dropXfer n t.idx else s
  else if t.space = 3 then
    if t.kind = .dout && s.xferReady n t then s.doneDout n t else s
  else if s.xferReady n t then
    let descs := s.xferDescs n t
    ((State.runDescs n t 0 descs s).farUnknown t).dropXfer n t.idx
  else s

/-- The message that a DIN takes: its entry's DATA, LENGTH, whether it is OVERSIZE, and its space (Table 8.6). -/
def State.readMsg (s : State) (q : Nat) : Nat × Nat × Bool × Space :=
  let a := s.qSlot q (s.nextMsg q)
  let f := s.readNum (s.qSpace q) (a + 20) 1
  (s.readNum (s.qSpace q) a 8, s.readNum (s.qSpace q) (a + 8) 4, bit f 0, if bit f 1 then .near else .host)

/-- DIN_RECEIVE: a waiting DIN consumes the next message, checks it, and writes its rows (R239, R240). -/
def State.dinReceive (s : State) (n : Nat) (t : Xfer) (failed : Bool) : State :=
  let q := t.queue
  let earlier := (s.core n).xfers.any fun u => u.kind = .din && u.space = 3 && decide (u.idx < t.idx) && u.queue = q
  if earlier || !s.msgReady q || !s.xferReady n t then s
  else
    let m := s.readMsg q
    let d := t.desc
    let size := d.rows * d.rowBytes
    let s := s.dropXfer n t.idx
    if m.2.2.1 ∨ m.2.1 ≠ size then (s.consume n t.ctx q 0x02).xferFault n t 0x02
    else if m.2.2.2 = .near ∧ t.checked ∧ s.nearWindow t.act m.1 size false = false then
      (s.consume n t.ctx q 0x03).xferFault n t 0x03
    else
      let sp := m.2.2.2
      let dst := spaceOf n d.localSpace
      let base := if d.lsp then 0 else t.sbase
      let rows := (indexed 0 d.localRows).map fun r =>
        let a := m.1 + r.1 * d.rowBytes
        ((base + r.2.1, s.readMem sp a d.rowBytes),
          if failed ∧ sp = .host then [(0, d.rowBytes)] else s.markedParts sp [] a d.rowBytes)
      let bad := rows.any fun r => r.2 ≠ []
      let s := (s.each rows fun r s => s.putRow dst r.1.1 r.1.2 r.2).notePacked n t d
      let s := s.consume n t.ctx q (if bad then 0x20 else 0)
      if bad then s.xferPoison n t else s

/-! Draining. -/

/-- The binary32 value of each tile element, row by row; a marked entry delivers NaN (R93). -/
def State.tileRows (s : State) (n : Nat) (t : Xfer) : List (List Nat) × Bool :=
  let k := s.core n
  let es := t.drainEntries
  let v := es.map fun e =>
    if Sparse.get false k.accPoison e then F32.nan else (Sparse.get 0 k.acc e).toNat
  (chunks es.length t.desc.tileCols v, es.any fun e => Sparse.get false k.accPoison e)

/-- The rounding mode of a DRAIN (R59, R150). -/
def Xfer.mode (t : Xfer) : RMode :=
  if bit t.slot.toNat 17 then .sr t.seed.toNat (bits t.sc.toNat 0 32) t.step else .rne

/-- The logical index of tile element (r, c) (R185). -/
def Desc.index (d : Desc) (r c : Nat) : Nat := ((d.row0 + r) * d.len + d.col0 + c) % 2 ^ 48

/-- One element converted to a plain format, with its flags; binary64 is the value itself. -/
def plainCode (f : Nat) (md : RMode) (ix x : Nat) : Nat × Nat :=
  if fmtType f = 7 then ((F32.convert F64 0 x).1, 0) else toShort f md ix 0xA0 x

/-- A converted tile row: its codes, group scales, side lists, flags and saturations. -/
structure OutRow where
  codes : List Nat
  scales : List Nat
  sides : List Nat
  flags : Nat
  sats : Nat
  deriving DecidableEq, Repr

/-- Converts tile row `r` (R56, R64); a row's last group is padded with zeros (R52). -/
def drainRow (d : Desc) (f : Nat) (md : RMode) (r : Nat) (xs : List Nat) : OutRow :=
  if fmtG f = 0 then
    let cs := (indexed 0 xs).map fun p => plainCode f md (d.index r p.1) p.2
    { codes := cs.map (·.1), scales := [], sides := [], flags := cs.foldl (fun a c => a ||| c.2) 0,
      sats := (cs.filter fun c => c.2 % 2 = 1).length }
  else
    let gs := (indexed 0 (chunks xs.length (fmtG f) xs)).map fun p =>
      convertGroup f md none (fun i => d.index r (p.1 * fmtG f + i)) (padNats (fmtG f) p.2)
    { codes := gs.flatMap (·.codes), scales := gs.map (·.scale), sides := gs.flatMap (·.side),
      flags := gs.foldl (fun a g => a ||| g.flags) 0, sats := gs.foldl (fun a g => a + g.sats) 0 }

/-- Writes element codes from bit position `pos` (in elements) of a row: an OX4 element shares its byte with its
neighbour. -/
def State.putCodes (s : State) (sp : Space) (f row pos : Nat) (cs : List Nat) : State :=
  if fmtBits f = 4 then
    let head := if pos % 2 = 1 then [s.readNum sp (row + pos / 2) 1 % 16] else []
    let tail := if (head ++ cs).length % 2 = 1 then [s.readNum sp (row + (pos + cs.length) / 2) 1 / 16] else []
    s.writeMem sp (row + pos / 2) (packElems f (head ++ cs ++ tail))
  else s.writeMem sp (row + pos * fmtBits f / 8) (packElems f cs)

/-- Writes a tile's rows into the planes of its tensor (R52, R185). -/
def State.putTile (s : State) (sp : Space) (base f : Nat) (d : Desc) (rows : List OutRow) : State :=
  s.each (indexed d.row0 rows) fun r s =>
    let s := s.putCodes sp f (base + d.base + r.1 * elemPitch f d.len) d.col0 r.2.codes
    if fmtG f = 0 then s
    else
      let g := d.col0 / fmtG f
      let s := s.writeMem sp (base + d.scaleBase + r.1 * scalePitch f d.len + g) (r.2.scales.flatMap (leBytes 1))
      if fmtE f = 0 then s
      else s.writeMem sp (base + d.sideBase + r.1 * sidePitch f d.len + 4 * fmtE f * g) (r.2.sides.flatMap (leBytes 4))

/-- A header of a RAW data block, whose other fields are zero (DESIGN CHOICE, log 38). -/
def rawHdr (f elements : Nat) : BlkHdr :=
  { mode := 0, poison := false, bumped := false, kind := 0, fmt := f, slot := 0, gen := 0, elements := elements,
    packed := 0, scale := 0, bumps := 0, tag := 0, first := 0, aux := 0, coord := 0, hop := 0, last := false,
    step := 0, crc := 0 }

/-- The tile as consecutive RAW blocks (R185). -/
def packTile (f : Nat) (rows : List OutRow) : Bytes :=
  let parts : List (Nat × Bytes) :=
    if fmtG f = 0 then
      let cs := rows.flatMap (·.codes)
      (chunks cs.length (4096 * 8 / fmtBits f) cs).map fun p => (p.length, packElems f p)
    else
      let gs := rows.flatMap fun r =>
        ((chunks r.codes.length (fmtG f) r.codes).zip r.scales).zip
          (if fmtE f = 0 then r.scales.map fun _ => [] else chunks r.sides.length (fmtE f) r.sides)
      (chunks gs.length (4096 / expandedSize f (fmtG f)) gs).map fun p =>
        (p.length * fmtG f, packElems f (p.flatMap fun g => g.1.1) ++ (p.flatMap fun g => leBytes 1 g.1.2) ++
          p.flatMap fun g => g.2.flatMap (leBytes 4))
  parts.flatMap fun p =>
    let b := blockBytes (rawHdr f p.1) p.2
    padTo (blockSize p.2.length) b

/-- The counts of a tile in a histogram set (R69). -/
def State.countHist (s : State) (n set : Nat) (xs : List Nat) : State :=
  let bins := xs.map histBin
  s.each (List.range 64) fun b s =>
    let c := (bins.filter fun v => v = b).length
    if c = 0 then s else s.addSat (Reg.numHist n set b) Fld.numHistCount c

/-- The first NaN or infinity of a tile of up to 128 × 128 values, rows ascending, then columns (R70). -/
def firstBad (rows : List (List Nat)) : Option (Nat × Nat) :=
  ((indexed 0 rows).flatMap fun r => (indexed 0 r.2).filterMap fun c =>
    if F32.isFin c.2 then none else some (r.1, c.1)).head?

/-- The output tiles of a drained tile, 128 × 128 values at most, in row-major order (R70; DEDUCED, log 39). -/
def outTiles (rows : List (List Nat)) : List (List (List Nat)) :=
  (chunks rows.length 128 rows).flatMap fun band =>
    let w := (band.headD []).length
    (List.range ((w + 127) / 128)).map fun j => band.map fun r => (r.drop (128 * j)).take 128

/-- Sets the numeric flag of one output tile: the record and its event, or its count (R70). -/
def State.tileFlag (s : State) (n : Nat) (t : Xfer) (tile : List (List Nat)) : State :=
  match firstBad tile with
  | none => s
  | some (r, c) =>
    let k := Reg.numTileNan n
    let s := s.raise n flTileNum
    if s.flag k Fld.numTileNanValid then s.addSat k Fld.numTileNanCount 1
    else
      let s := s.setReg k (r + c * 2 ^ 8 + 2 ^ 15 + (recTag t.ctx t.off t.tag).toNat * 2 ^ 32)
      s.ctxEvent n t.ctx 0x06 0x20 t.off t.tag (openPayload 0x06 0x20 t.act s.now)

/-- The tile rows that share squares, each band with its first row's place in the tile: a square's rows start at a
multiple of G of the tensor's rows (R87). -/
def squareBands (g row0 : Nat) (rows : List (List Nat)) : List (Nat × List (List Nat)) :=
  let h := g - row0 % g
  (0, rows.take h) :: (indexed 0 (chunks rows.length g (rows.drop h))).map fun p => (h + g * p.1, p.2)

/-- Converts a tile with the square-grouping option (R87): every aligned G × G square of the tensor is one unit. Of a
square that the tile covers in part, the other rows count as zeros (DESIGN CHOICE, log 150). -/
def drainSquares (d : Desc) (f : Nat) (md : RMode) (rows : List (List Nat)) : List OutRow :=
  let g := fmtG f
  (squareBands g d.row0 rows).flatMap fun band =>
    let sqs := (List.range ((d.tileCols + g - 1) / g)).map fun q =>
      convertSquare f md none (fun r i => d.index (band.1 + r) (q * g + i))
        (band.2.map fun xs => padNats g ((xs.drop (q * g)).take g))
    (List.range band.2.length).map fun r =>
      let gs := sqs.filterMap fun sq => sq[r]?
      { codes := gs.flatMap (·.codes), scales := gs.map (·.scale), sides := gs.flatMap (·.side),
        flags := gs.foldl (fun a g => a ||| g.flags) 0, sats := gs.foldl (fun a g => a + g.sats) 0 }

/-- The converted rows of a tile, under the square-grouping option or group by group. -/
def drainRows (d : Desc) (f : Nat) (md : RMode) (square : Bool) (rows : List (List Nat)) : List OutRow :=
  if square ∧ fmtG f ≠ 0 then drainSquares d f md rows
  else (indexed 0 rows).map fun r => drainRow d f md r.1 r.2

/-- DRAIN_CONVERT: the tile is converted and written, its statistics merged, its histogram counted and its numeric
flags set; the entries keep their values (R150). -/
def State.convertDrain (s : State) (n : Nat) (t : Xfer) (square : Bool) : State :=
  let w := t.slot.toNat
  let f := drainFmt w
  let d := t.desc
  let tile := s.tileRows n t
  let rows := drainRows d f t.mode square tile.1
  let sp := spaceOf n t.space
  let base := if t.space = 2 then t.sbase else 0
  let s := if t.space = 0 then s.nearTraffic (drainRanges d f (bit w 8)) else s
  let s := if bit w 8 then s.writeMem sp (base + d.base) (packTile f rows) else s.putTile sp base f d rows
  let all := tile.1.flatMap id
  let flags := rows.foldl (fun a r => a ||| r.flags) (if tile.2 then flPoison else 0)
  let s := s.raise n flags
  let s := s.mergeStat t.act (bits t.sc.toNat 32 12) t.step (statOf all (rows.foldl (fun a r => a + r.sats) 0))
  let s := if bit w 9 then
      s.each (indexed 0 tile.1) fun r s => s.mergeRowStat (8 * d.rstat + 8 * (d.row0 + r.1)) t.step (statOf r.2 0).amax
    else s
  let s := s.countHist n (bits w 15 2) all
  let s := s.each (outTiles tile.1) fun o s => s.tileFlag n t o
  let s := if flags &&& flPoison ≠ 0 ∨ all.any (fun x => !F32.isFin x) then s.xferPoison n t else s
  let s := s.modCore n fun k =>
    { k with xfers := k.xfers.map fun u => if u.idx = t.idx then { u with converted := true } else u }
  s.farPump n { t with converted := true }

/-- The oldest DRAIN of a context that has not been converted. -/
def State.nextDrain (s : State) (n x : Nat) : Option Xfer :=
  (s.ctxXfers n x).find? fun t => t.kind = .drain && !t.converted

/-- A drain converts once the products in flight have written its entries and the scoreboard lets it write (R92,
R149). An uncorrectable accumulator error fences the core and nothing is used (R179). -/
def State.drainNow (s : State) (n x : Nat) (square ue : Bool) : State :=
  match s.nextDrain n x with
  | none => s
  | some t =>
    let base := t.abase + bits t.slot.toNat 26 19
    let waits := s.accBusy n t.idx ((List.range (t.desc.tileRows * t.desc.tileCols)).map fun i => base + i)
    if waits || s.stageWriteWaits n t.idx (s.xferStageWrites n t) || s.extWaits n t then s
    else if ue then s.fenceCore n 2 (EvRec.by_ t.ctx t.off t.tag)
    else s.convertDrain n t square

/-! Meanings. -/

/-- DIN_COPY. -/
def execDinCopy (core : Nat) (ctx : CtxIn) (s : State) : Host.Outcome State Fault Refusal :=
  whenUnits s (okCore core && okCtx ctx.x)
    (s.onSlot core ctx.x 1 1 (fun s b w => s.descReady core ctx.x b w)
      (State.unlessUe core ctx.x ctx.ue (State.issueXfer core ctx.x 1 .din)))
/-- DOUT_COPY. -/
def execDoutCopy (core : Nat) (ctx : CtxIn) (s : State) : Host.Outcome State Fault Refusal :=
  whenUnits s (okCore core && okCtx ctx.x)
    (s.onSlot core ctx.x 2 1 (fun s b w => s.descReady core ctx.x b w)
      (State.unlessUe core ctx.x ctx.ue (State.issueXfer core ctx.x 2 .dout)))
/-- DRAIN. -/
def execDrain (core : Nat) (ctx : CtxIn) (s : State) : Host.Outcome State Fault Refusal :=
  whenUnits s (okCore core && okCtx ctx.x)
    (s.onSlot core ctx.x 2 2 (fun s b w => s.descReady core ctx.x b w)
      (State.unlessUe core ctx.x ctx.ue (State.issueXfer core ctx.x 2 .drain)))
/-- DRAIN_CONVERT. `how.square` says whether the conversion carries the square-grouping option, for which no field of a
slot or descriptor stands in the spec (R87; DESIGN CHOICE, log 150). -/
def execDrainConvert (core ctx : Nat) (how : ConvertIn) (s : State) : Host.Outcome State Fault Refusal :=
  whenUnits s (okCore core && okCtx ctx) (s.drainNow core ctx how.square how.ue)
/-- DIN_RECEIVE. -/
def execDinReceive (core ctx idx : Nat) (readFailed : Bool) (s : State) : Host.Outcome State Fault Refusal :=
  whenUnits s (okCore core && okCtx ctx)
    (match (s.ctxXfers core ctx).find? fun t => t.idx = idx && t.kind = .din && t.space = 3 with
      | some t => s.dinReceive core t readFailed
      | none => s)

/-- Whether no sideshow act is bound to context 1 of a core. -/
def State.sideFree (s : State) (n : Nat) : Bool := (s.ctx n 1).queue.isNone && (s.core n).sideHolder.isNone

/-- SB_SIDESHOW_APPLY: a new partition size takes effect once no sideshow context is bound to the core (R172).
The next act bound there is scrubbed first, whichever it is, so that nothing of another act comes into its partition
(R209; DEDUCED, log 50). -/
def execSbSideshowApply (core : Nat) (s : State) : Host.Outcome State Fault Refusal :=
  whenUnits s (okCore core)
    (if s.sideFree core then
      (s.modCore core fun k => { k with sbSideshow := s.fld Reg.memCtl Fld.memCtlSbSideshow }).modCtx core 1 fun c =>
        { c with lastAct := none }
    else s)

end Sys2Proof.Machine
end

