-- ==== Sys2Proof/Machine/Queues.lean ====
section
/-! DEFINITION. The queues' controls and states (R230, R234 to R237, R244, R248, R251, R252, Tables 8.5, 8.14) and
the doorbells (R223 to R225). -/

namespace Sys2Proof.Machine

/-! What reaches the host port. -/

/-- Whether accesses of a function reach the module: it is out of reset, and the virtual functions are there (R220,
R368). -/
def State.hostOk (s : State) (fn : Nat) : Bool := s.alive && (fn = 0 || !s.vfsOff)

/-- Whether start-up has come to PHASE 0x6 (R368). -/
def State.started (s : State) : Bool := decide (6 ≤ s.phase)

/-- The queue that a function's QSEL selects (R248). -/
def State.selected (s : State) (fn : Nat) : Option Nat :=
  if s.flag (Reg.qmQsel fn) Fld.qmQselValid then some (s.fld (Reg.qmQsel fn) Fld.qmQselQueue) else none

/-- The queue to which the EVT block of a function applies: the one its QSEL selects, whose TYPE is 3 (R249). -/
def State.evtSelected (s : State) (fn : Nat) : Option Nat := (s.selected fn).filter fun q => s.qType q = 3

/-- Q_STATE.BUSY. -/
def State.qBusy (s : State) (q : Nat) : Bool := s.flag (Reg.qmQState q) Fld.qmQStateBusy

/-- CONTEXT of a command queue. -/
def State.qContext (s : State) (q : Nat) : Nat := s.fld (Reg.qmQCfg q) Fld.qmQCfgContext

/-- CORE of a command queue. -/
def State.qCore (s : State) (q : Nat) : Nat := s.fld (Reg.qmQCfg q) Fld.qmQCfgCore

/-- The act of a queue, 0 for a queue ID of no act. -/
def State.qAct (s : State) (q : Nat) : Nat := (s.queueAct q).getD 0

/-- Whether a queue's ring and data area lie elsewhere: the sending end of a device-to-device queue (R237). -/
def State.ringless (s : State) (q : Nat) : Bool :=
  s.qType q = 4 && s.copyKind q = 2 && s.flag (Reg.qmQPeer q) Fld.qmQPeerSender

/-- Whether the device feeds a queue's ring: event queues, device-to-host copy queues and receiving ends of
device-to-device ones (R226). -/
def State.deviceFed (s : State) (q : Nat) : Bool := s.qType q = 3 || (s.qType q = 4 && s.copyKind q ≠ 0)

/-! CREATE. -/

/-- The conditions under which a creation is refused with ACCESS_DENIED (R219, R223, R226, R230, R234). -/
def State.createDenied (s : State) (q : Nat) : Bool :=
  match s.queueAct q with
  | none => true
  | some a =>
    !s.actEnabled a ||
      (s.qType q = 1 && !(s.qContext q = 1 || (a = 0 && s.qContext q = 2))) ||
      (a ≠ 0 && !s.ringless q && s.qSpace q = .near &&
        (!s.nearWindow a (s.reg (Reg.qmQBase q)) (64 * s.qSize q) true ||
          (s.qType q = 4 && !s.nearWindow a (s.reg (Reg.qmQData q)) (s.dataSize q) true)))

/-- Whether a command queue's CORE is out of range: a logical core of the act's troupe, or for act 0 a physical core
that is not fused off (R230). -/
def State.coreBad (s : State) (q : Nat) : Bool :=
  let a := s.qAct q
  if a = 0 then decide (208 ≤ s.qCore q) || s.coreState (s.qCore q) = 0 else decide (s.troupeSize a ≤ s.qCore q)

/-- The created sample queues (R251). -/
def State.sampleQueues (s : State) : Nat := (s.createdQueues.filter fun q => s.qType q = 2).length

/-- The conditions under which a creation is refused with BAD_BUNDLE: the start-up phase, and a configuration out of
range (R230, R234, R237, R251, R368). -/
def State.createBad (s : State) (q : Nat) : Bool :=
  let t := s.qType q
  let l := s.fld (Reg.qmQCfg q) Fld.qmQCfgLog2Size
  !(s.started || (decide (2 ≤ s.phase) && t = 3 && s.qAct q = 0)) || t = 0 || decide (5 < t) ||
    decide (l < 6) || decide (20 < l) || (t = 1 && s.coreBad q) || (t = 2 && decide (256 ≤ s.sampleQueues)) ||
    (t = 4 && (s.copyKind q = 3 ||
      (!s.ringless q && s.fld (Reg.qmQCfg q) Fld.qmQCfgSpace ≠ (if s.copyKind q = 1 then 0 else 1))))

/-- Both counts return to zero; the shadow follows the device-side one when it changes (R229). -/
def State.zeroCounts (s : State) (q : Nat) : State :=
  let old := if s.deviceFed q then s.qProd q else s.qCons q
  let s := s.setReg (Reg.qmQPtr q) 0
  if old = 0 then s else s.shadow q 0

/-- SEQ, DROPPED and OVERFLOW of an event queue return to zero (R249, Table 8.14). -/
def State.zeroEvents (s : State) (q : Nat) : State :=
  (s.setReg (Reg.evtQstat q) 0).setReg (Reg.evtSeq q) 0

/-- The batch numbers of a sample queue return to zero (R252). -/
def State.zeroBatches (s : State) (q : Nat) : State :=
  (s.setReg (Reg.inBatch q) 0).setReg (Reg.inStatus q) 0

/-- CREATE: from DISABLED to STOPPED (R230, R234, R249). Messages that wait at senders of this module for the end to be
created wait on (R240). -/
def State.createQueue (s : State) (q : Nat) : State :=
  if s.qState q ≠ 0 ∨ s.qBusy q then s.refuseControl q 0x02
  else if s.createBad q then s.refuseControl q 0x02
  else if s.createDenied q then s.refuseControl q 0x03
  else
    let s := (s.zeroCounts q).modQueue q fun k =>
      { Queue.reset with recvSeq := if s.qType q = 4 then some 0 else none,
                         arriving := k.arriving.filter fun m => m.srcCoord = s.selfLogical }
    let s := if s.qType q = 3 then (s.zeroEvents q).setFld (Reg.evtPending q) Fld.evtPendingRecords 0 else s
    let s := if s.qType q = 2 then s.zeroBatches q else s
    s.setQState q 1

/-! START. -/

/-- Whether the queue's EVQ names a created event queue of the same act (R244). -/
def State.evqOk (s : State) (q : Nat) : Bool := s.evQueueOf (s.qAct q) (s.fld (Reg.qmQCfg q) Fld.qmQCfgEvq)

/-- Whether a core is unassigned: enabled, in service and outside every headline troupe (R204). -/
def State.unassigned (s : State) (n : Nat) : Bool := s.coreState n = 3 && (s.core n).logical = []

/-- Rounds up to a multiple of 256 (R262). -/
def up256 (n : Nat) : Nat := roundUp n 256

/-- L, B, SEG_MAX and the media area of a sample queue (R261). -/
def State.inL (s : State) (q : Nat) : Nat := s.fld (Reg.inSeq q) Fld.inSeqLen128 * 128
/-- B. -/
def State.inB (s : State) (q : Nat) : Nat := s.fld (Reg.inSeq q) Fld.inSeqSeqs + 1
/-- SEG_MAX. -/
def State.inSegMax (s : State) (q : Nat) : Nat := s.fld (Reg.inSeq q) Fld.inSeqSegMax
/-- The media area's bytes. -/
def State.inMedia (s : State) (q : Nat) : Nat := s.fld (Reg.inBatchCfg q) Fld.inBatchCfgMediaKib * 1024
/-- Q, the bytes of a sequence's planes (R262). -/
def State.inQ (s : State) (q : Nat) : Nat :=
  let l := s.inL q
  up256 (2 * l) + up256 l + up256 (l / 8) + up256 (4 * l) + up256 (32 * s.inSegMax q)
/-- MOFF (R262). -/
def State.inMoff (s : State) (q : Nat) : Nat := roundUp (1024 + s.inB q * s.inQ q) 4096
/-- BUF (R262). -/
def State.inBuf (s : State) (q : Nat) : Nat := s.inMoff q + s.inMedia q
/-- NB, the number of batch buffers (R262). -/
def State.inNb (s : State) (q : Nat) : Nat := s.fld (Reg.inBatchCfg q) Fld.inBatchCfgBuffers + 1
/-- WINDOW. -/
def State.inWindow (s : State) (q : Nat) : Nat := s.fld (Reg.inWin q) Fld.inWinWindow
/-- A staging slot's bytes. -/
def State.inSlot (s : State) (q : Nat) : Nat := s.fld (Reg.inWin q) Fld.inWinSlotKib * 1024

/-- Whether an IN configuration field is outside its range, or EMIT_SEM equals FREE_SEM (R252, Table 9.11). -/
def State.inBad (s : State) (q : Nat) : Bool :=
  let len := s.fld (Reg.inSeq q) Fld.inSeqLen128
  let fmt := s.fld (Reg.inOut q) Fld.inOutFmt
  let rate := s.fld (Reg.inAudio q) Fld.inAudioRate
  decide (len < 1) || decide (8192 < len) || s.inSegMax q = 0 || !(fmt = 0x20 || fmt = 0x40 || fmt = 0x60) ||
    s.fld (Reg.inOut q) Fld.inOutPatch = 3 || s.fld (Reg.inOut q) Fld.inOutPatchT = 3 ||
    s.fld (Reg.inOut q) Fld.inOutFrameSamples = 0 || s.fld (Reg.inBatchCfg q) Fld.inBatchCfgMediaKib % 4 ≠ 0 ||
    decide (s.inWindow q < 16) || decide (1024 < s.inWindow q) || s.fld (Reg.inWin q) Fld.inWinSlotKib % 4 ≠ 0 ||
    s.fld (Reg.inColour q) Fld.inColourMatrix = 3 || s.fld (Reg.inColour q) Fld.inColourTransfer = 3 ||
    decide (rate < 8000) || decide (96000 < rate) ||
    s.fld (Reg.inSems q) Fld.inSemsEmitSem = s.fld (Reg.inSems q) Fld.inSemsFreeSem

/-- Whether the batch buffers or the staging area lie outside the writable near windows of the act (R252). Act 0 is
not checked against windows (R180). -/
def State.inDenied (s : State) (q : Nat) : Bool :=
  let a := s.qAct q
  a ≠ 0 && (!s.nearWindow a (s.reg (Reg.inBatchBase q)) (s.inNb q * s.inBuf q) true ||
    !s.nearWindow a (s.reg (Reg.inStageBase q)) (s.inWindow q * s.inSlot q) true)

/-- The refusal of a START, if one applies (R236, R244, R252, R404). -/
def State.startRefusal (s : State) (q : Nat) : Option Nat :=
  let t := s.qType q
  let hold := s.flag (Reg.qmQCfg q) Fld.qmQCfgHoldCue
  if (t ≠ 3 && !s.evqOk q) || (t ≠ 1 && hold) || (t = 2 && s.inBad q) then some 0x02
  else if (t = 1 && s.qAct q = 0 && !s.unassigned (s.qCore q)) || (t = 2 && s.inDenied q) then some 0x03
  else none

/-- The queue's contexts issue again after a halt. -/
def State.wakeQueue (s : State) (q : Nat) : State :=
  match (s.queue q).bound with
  | some (n, x) =>
    (s.stirred n).modCtx n x fun c => if c.state = .halted then { c with state := .issuing } else c
  | none => s

/-- START (R137, R234, R236, R252). A lost module's queues stay stopped until reset (R337; the refusal is a DESIGN CHOICE,
log 156). -/
def State.startQueue (s : State) (q : Nat) : State :=
  if s.qBusy q ∨ s.phase = 0xF ∨ !(s.qState q = 1 || s.qState q = 4) then s.refuseControl q 0x02
  else
    match s.startRefusal q with
    | some st => s.refuseControl q st
    | none =>
      if s.qState q = 4 then (s.setQState q 2).wakeQueue q
      else if s.qType q = 1 ∧ s.flag (Reg.qmQCfg q) Fld.qmQCfgHoldCue then s.setQState q 3
      else
        let s := if s.qType q = 2 then
            s.modQueue q fun k => { k with seed := BitVec.ofNat 64 (s.reg (Reg.qmActSeed (s.qAct q))) }
          else s
        let s := s.setQState q 2
        if s.qType q = 3 then (s.ringCatchUp q).releaseHold (s.qAct q) else s

/-! STOP. -/

/-- Puts a control that takes time in progress: 2 STOP, 3 RESET. -/
def State.beginControl (s : State) (q ctl : Nat) : State :=
  (s.modQueue q fun k => { k with control := some ctl }).setFld (Reg.qmQState q) Fld.qmQStateBusy 1

/-- The control in progress ends, and the queue is STOPPED. -/
def State.endControl (s : State) (q : Nat) : State :=
  let s := s.modQueue q fun k => { k with control := none }
  (s.setFld (Reg.qmQState q) Fld.qmQStateBusy 0).setQState q 1

/-- STOP (R234, R236, R252). -/
def State.stopQueue (s : State) (q : Nat) : State :=
  if s.qBusy q then s.refuseControl q 0x02
  else if s.qState q = 3 then s.setQState q 1
  else if s.qState q = 2 then s.beginControl q 2
  else s.refuseControl q 0x02

/-- Whether the work that a STOP lets finish is finished: a command queue's stream, a sample queue's fetched
entries; the other types finish a record, message or entry at once. -/
def State.stopDone (s : State) (q : Nat) : Bool :=
  match s.qType q with
  | 1 => (s.queue q).bound.isNone && !(s.queue q).begun
  | 2 => (s.queue q).samples = []
  | _ => true

/-- QUEUE_STOPPED. -/
def State.queueStopped (s : State) (q : Nat) : State :=
  if s.alive ∧ (s.queue q).control = some 2 ∧ s.stopDone q then s.endControl q else s

/-! RESET. -/

/-- Lets a stream that resets or restarts go of the waits that hold its issue: a WAIT, a CUEWAIT or a BUCKET that has
not been taken (DEDUCED, log 42). -/
def State.dropWaits (s : State) (n x : Nat) : State :=
  s.modCtx n x fun c => { c with wait := none, cueWait := none, bucketWait := none }

/-- A RESET of a sample queue stops the decoding of every fetched entry, with the table references they hold, and discards the
open batch (R252). -/
def State.dropSamples (s : State) (q : Nat) : State :=
  (s.modQueue q fun k => { k with samples := [], batch := { Batch.reset with number := k.batch.number } }).setFld
    (Reg.inStatus q) Fld.inStatusFreeWait 0

/-- RESET: issue stops at the next bundle boundary (R235). -/
def State.resetQueue (s : State) (q : Nat) : State :=
  if s.qBusy q ∨ s.qState q = 0 then s.refuseControl q 0x02
  else
    let s := (s.beginControl q 3).setQState q 7
    let s := if s.qType q = 2 then s.dropSamples q else s
    match (s.queue q).bound with
    | some (n, x) => (s.dropWaits n x).modCtx n x fun c => { c with state := .halted, reload := false }
    | none => s

/-- A sending end's RESET: messages not yet stored or acknowledged are discarded, and every DOUT whose send is discarded, or
that waits in flight for the queue, completes with BAD_BUNDLE (Table 8.14, R166). -/
def State.discardSends (s : State) (q : Nat) : State :=
  let lost := (s.cores.map (·.1)).flatMap fun n =>
    ((s.core n).xfers.filter fun t => t.kind = .dout && t.space = 3 && t.queue = q &&
      (!t.sent || s.copyPending q t.off)).map fun t => (n, t)
  let s := s.each (s.queues.map (·.1)) fun r s =>
    if (s.queue r).arriving = [] then s
    else s.modQueue r fun k => { k with arriving := k.arriving.filter fun m => !(m.srcQueue = q && m.srcCoord = s.selfLogical) }
  let s := { s with heldFrames := s.heldFrames.filter fun h =>
    !(h.frame.typ.toNat = 2 && fieldAt h.frame.ext 2 2 = q) }
  s.each lost fun p s => (s.dropXfer p.1 p.2.idx).xferFault p.1 p.2 0x02

/-- What a RESET clears in the end (R235, R252, Table 8.14). A copy queue's messages that wait at their sender go on
waiting. -/
def State.resetEffect (s : State) (q : Nat) : State :=
  match s.qType q with
  | 3 =>
    let s := s.zeroEvents (q := q)
    (s.modQueue q fun k => { Queue.reset with control := k.control, rung := k.rung, evStamps := k.evStamps,
                                              evDeadline := k.evDeadline }).zeroCounts q
  | 4 =>
    let s := if s.doutEnd q then s.discardSends q else s
    (s.modQueue q fun k => { Queue.reset with control := k.control, rung := k.rung, arriving := k.arriving,
                                              partials := k.partials, sendSeq := k.sendSeq }).zeroCounts q
  | t =>
    let s := match (s.queue q).bound with
      | some (n, x) => s.modCtx n x SeqCtx.vacate
      | none => s
    let s := s.modQueue q fun k => { Queue.reset with control := k.control, rung := k.rung }
    let s := if t = 2 then s.zeroBatches q else s
    (s.setReg (Reg.qmQRuncnt q) 0).setCons q (s.qProd q)

/-- Whether every effect that a RESET waits for is complete (R235). -/
def State.resetQuiet (s : State) (q : Nat) : Bool :=
  match (s.queue q).bound with
  | some (n, x) => s.quiet n x
  | none => true

/-! Doorbells. -/

/-- Whether the host produces into a queue (R224). -/
def State.hostProduces (s : State) (q : Nat) : Bool :=
  s.qType q = 1 || s.qType q = 2 || s.qType q = 5 || (s.qType q = 4 && s.copyKind q = 0)

/-- Whether the host consumes from a queue (R224). -/
def State.hostConsumes (s : State) (q : Nat) : Bool := s.qType q = 3 || (s.qType q = 4 && s.copyKind q = 1)

/-- Rejects a doorbell: a QUEUE event to the act that owns the function (R225, Table 8.9). -/
def State.rejectDoorbell (s : State) (fn q : Nat) : State := s.queueEvent fn q 1 0x03 (s.qState q) (s.qState q)

/-- Applies a doorbell's count, or rejects one that goes backwards or overfills the ring (R224, R225). When an event
queue's host frees a slot, the OVERFLOW record that waits is written (R246). -/
def State.applyDoorbell (s : State) (fn q v : Nat) : State :=
  let d := (v + 2 ^ 32 - s.qCons q) % 2 ^ 32
  if s.hostProduces q then
    if s.qUsed q ≤ d ∧ d ≤ s.qSize q then s.setFld (Reg.qmQPtr q) Fld.qmQPtrProducer v else s.rejectDoorbell fn q
  else if s.hostConsumes q ∧ d ≤ s.qUsed q then
    let s := s.setFld (Reg.qmQPtr q) Fld.qmQPtrConsumer v
    if s.qType q = 3 then s.ringCatchUp q else s
  else s.rejectDoorbell fn q

/-- A doorbell write at an offset of a function's BAR2 (R223 to R225). While a queue resets, the count is kept until
the reset ends (R235). -/
def State.doorbell (s : State) (fn off size v : Nat) : State :=
  let q := off / 64
  if !s.hostOk fn || decide (65536 ≤ q) || off % 64 ≠ 0 || !(size = 4 || size = 8) then s
  else if !s.qCreated q || s.queueAct q ≠ some fn then s.rejectDoorbell fn q
  else if s.qState q = 7 then s.modQueue q fun k => { k with rung := k.rung ++ [v % 2 ^ 32] }
  else s.applyDoorbell fn q (v % 2 ^ 32)

/-- RESET_DONE: the reset ends, the queue is STOPPED, and the doorbells rung meanwhile take effect (R235). -/
def State.resetDone (s : State) (q : Nat) : State :=
  if s.alive ∧ (s.queue q).control = some 3 ∧ s.resetQuiet q then
    let rung := (s.queue q).rung
    let s := ((s.resetEffect q).modQueue q fun k => { k with rung := [] }).endControl q
    s.each rung fun v s => s.applyDoorbell (s.qAct q) q v
  else s

/-! SKIP, RESUME and DESTROY. -/

/-- SKIP: the bundle that faulted at decode is passed over, counting one offset; control goes on as past a bundle
without effect (R136, R164). A stream that has no further bundle ends (DEDUCED, log 43). -/
def State.skipBundle (s : State) (n x : Nat) : State :=
  let c := s.ctx n x
  let next := c.word + max 1 (hdrLength (s.streamWord c c.word))
  s.modCtx n x fun c =>
    let r := afterBody c.word next c.loops
    let c := { c with off := (c.off + 1) % 2 ^ 32, loops := r.1, state := .issuing, syncDone := false }
    if c.words ≤ r.2 then { c with ended := true, word := r.2 } else c.goto r.2 false

/-- SKIP. -/
def State.skipQueue (s : State) (q : Nat) : State :=
  if s.qBusy q ∨ s.qType q ≠ 1 ∨ s.qState q ≠ 5 then s.refuseControl q 0x02
  else
    let s := s.setQState q 2
    match (s.queue q).bound with
    | some (n, x) => (s.stirred n).skipBundle n x
    | none => s

/-- RESUME: the stream restarts from its last resume record once its earlier effects are complete; refused to act 0
while its core stays fenced (R166, R234, R404). -/
def State.resumeQueue (s : State) (q : Nat) : State :=
  if s.qBusy q ∨ s.qType q ≠ 1 ∨ s.qState q ≠ 6 then s.refuseControl q 0x02
  else if s.qAct q = 0 ∧ (s.core (s.qCore q)).fenceAt.isSome then s.refuseControl q 0x03
  else
    let s := s.setQState q 2
    match (s.queue q).bound with
    | some (n, x) => (s.dropWaits n x).modCtx n x fun c => { c with state := .issuing, reload := true }
    | none => s

/-- DESTROY (R234). -/
def State.destroyQueue (s : State) (q : Nat) : State :=
  if s.qBusy q ∨ s.qState q ≠ 1 then s.refuseControl q 0x02 else s.setQState q 0

/-! Controls. -/

/-- A control by its bit of Q_CTL (Table 8.11), on the queue that the function has selected. Before PHASE 0x6 a
control of act 0 reaches its event queues only, and any creation is judged (R368). -/
def State.control (s : State) (fn ctl : Nat) : State :=
  match s.selected fn with
  | none => s
  | some q =>
    if !s.hostOk fn || !(s.started || ctl = 0 || s.qType q = 3) then s
    else
      match ctl with
      | 0 => s.createQueue q
      | 1 => s.startQueue q
      | 2 => s.stopQueue q
      | 3 => s.resetQueue q
      | 4 => s.skipQueue q
      | 5 => s.resumeQueue q
      | 6 => s.destroyQueue q
      | _ => s

/-! Meanings. -/

/-- CREATE. -/
def execCreate (fn : Nat) (s : State) : Host.Outcome State Fault Refusal := whenUnits s (okFn fn) (s.control fn 0)
/-- START. -/
def execStart (fn : Nat) (s : State) : Host.Outcome State Fault Refusal := whenUnits s (okFn fn) (s.control fn 1)
/-- STOP. -/
def execStop (fn : Nat) (s : State) : Host.Outcome State Fault Refusal := whenUnits s (okFn fn) (s.control fn 2)
/-- QUEUE_STOPPED. -/
def execQueueStopped (q : Nat) (s : State) : Host.Outcome State Fault Refusal :=
  whenUnits s (okQueue q) (s.queueStopped q)
/-- RESET. -/
def execReset (fn : Nat) (s : State) : Host.Outcome State Fault Refusal := whenUnits s (okFn fn) (s.control fn 3)
/-- RESET_DONE. -/
def execResetDone (q : Nat) (s : State) : Host.Outcome State Fault Refusal :=
  whenUnits s (okQueue q) (s.resetDone q)
/-- SKIP. -/
def execSkip (fn : Nat) (s : State) : Host.Outcome State Fault Refusal := whenUnits s (okFn fn) (s.control fn 4)
/-- RESUME. -/
def execResume (fn : Nat) (s : State) : Host.Outcome State Fault Refusal := whenUnits s (okFn fn) (s.control fn 5)
/-- DESTROY. -/
def execDestroy (fn : Nat) (s : State) : Host.Outcome State Fault Refusal := whenUnits s (okFn fn) (s.control fn 6)
/-- DOORBELL. -/
def execDoorbell (fn off size val : Nat) (s : State) : Host.Outcome State Fault Refusal :=
  whenUnits s (okFn fn) (s.doorbell fn off size val)

end Sys2Proof.Machine
end

