-- ==== Sys2Proof/Machine/Streams.lean ====
section
/-! DEFINITION. Command entries and their streams: fetch and checks (R228, R232), binding to a stream context (R205,
R230, R231, R233, R404), and completion (R13, R167), and the entries of cue queues (R241). -/

namespace Sys2Proof.Machine

/-! Fetch. -/

/-- The 48 request bytes of an entry, read once (R228). -/
def State.readEntry (s : State) (q c : Nat) : Bytes := s.readMem (s.qSpace q) (s.qSlot q c) 48

/-- Bits that a command entry's reserved fields set (Table 8.4). -/
def entryReserved (bs : Bytes) : Bool := fieldAt bs 12 4 / 2 ≠ 0 || fieldAt bs 22 2 ≠ 0 || fieldAt bs 28 4 ≠ 0

/-- The checks of R232 on an entry of act `a`; act 0 is not checked against windows (R180). -/
def State.entryFaults (s : State) (a : Nat) (bs : Bytes) : List Nat :=
  let stream := fieldAt bs 0 8
  let words := fieldAt bs 8 4
  let resume := fieldAt bs 16 6
  let bad := entryReserved bs || words = 0 || stream % 4 ≠ 0 || resume % 64 ≠ 0
  let out := a ≠ 0 &&
    ((bit (fieldAt bs 12 4) 0 && !s.nearWindow a stream (4 * words) false) ||
      (resume ≠ 0 && !s.nearWindow a resume (fieldAt bs 24 4 * 1024) true))
  (if bad then [0x02] else []) ++ if out then [0x03] else []

/-- COMMAND_ENTRY_FETCH: the next entry of a running command queue, up to four ahead of the stream that runs (R232,
R233). -/
def State.fetchEntry (s : State) (q : Nat) : State :=
  let k := s.queue q
  let c := (s.qCons q + k.entries.length) % 2 ^ 32
  if s.alive ∧ s.qCreated q ∧ s.qType q = 1 ∧ s.qRunning q ∧ k.control = none ∧ k.entries.length < s.qUsed q ∧
      k.entries.length < 4 + b2n k.begun then
    let bs := s.readEntry q c
    let e : CmdEntry :=
      { count := c, stream := fieldAt bs 0 8, words := fieldAt bs 8 4, near := bit (fieldAt bs 12 4) 0,
        resume := fieldAt bs 16 6, resumeKib := fieldAt bs 24 4, bad := s.entryFaults (s.qAct q) bs }
    s.modQueue q fun k => { k with entries := k.entries ++ [e] }
  else s

/-! Conditions. -/

/-- The event type under which a condition of a completion is reported (Table 8.9). -/
def condType (status : Nat) : Nat :=
  if status < 0x10 then 0x05
  else if status < 0x20 then 0x07
  else if status = 0x20 then 0x06
  else if status = 0x21 then 0x0A
  else if status < 0x40 then 0x08
  else if status = 0x40 then 0x09
  else if status = 0x52 then 0x0B
  else if status = 0x60 then 0x0D
  else 0x0C

/-- The conditions of a completion that its status does not report (R13). -/
def furtherConds (conds : List Nat) : List Nat := conds.filter fun c => c ≠ 0 && c ≠ statusOf conds

/-- One event for each of some conditions of a completion of queue `q`, with the tag of the bundle that met it (R13,
R135); a record of a sideshow's bundle has its offset there (Table 8.8). -/
def State.condEvents (s : State) (q : Nat) (side : Bool) (conds : List (Nat × Word32)) : State :=
  s.each conds fun c s =>
    let a := s.qAct q
    let ty := condType c.1
    s.event { typ := ty, severity := openSeverity ty c.1, status := c.1, act := a, isOffset := side,
              queue := some q, core := s.recCore a q, phys := 0xFFFF, mw1 := q ≥ 0x8000, stamp := s.now, tag := c.2,
              payload := openPayload ty c.1 a s.now }

/-- Completes an entry whose conditions no event has reported yet: its status, then one event for each further
condition (R13, R242). -/
def State.completeWith (s : State) (q count : Nat) (conds : List Nat) : State :=
  (s.complete q count (statusOf conds) (furtherConds conds ≠ [])).condEvents q false
    ((furtherConds conds).map fun c => (c, 0))

/-- The events for a stream's further conditions. A bundle or packing fault, 0x01 to 0x1F, and a missed deadline had
their events when they were met (R93, R158, R164, R166; DEDUCED, log 143). -/
def State.furtherEvents (s : State) (q : Nat) (side : Bool) (conds : List (Nat × Word32)) : State :=
  s.condEvents q side (conds.filter fun c => (furtherConds (conds.map (·.1))).contains c.1 && decide (0x20 ≤ c.1) && c.1 ≠ 0x40)

/-! Binding. -/

/-- Whether a core can take streams: in service, or doubled (R339, R341). -/
def State.coreRuns (s : State) (n : Nat) : Bool := s.coreState n = 3 || s.coreState n = 5

/-- Whether an act 0 TEST stream is bound to a core. -/
def State.testBound (s : State) (n : Nat) : Bool := (s.ctx n 0).queue.isSome && (s.ctx n 0).kind = 2

/-- The core and context that a command queue's streams bind to now, if there is one (R205, R230, R231, R404): the core
that hosts the headline act's logical core; the core named by a queue of act 0; the core that holds the sideshow act's logical core. -/
def State.bindTarget (s : State) (q : Nat) : Option (Nat × Nat) :=
  let a := s.qAct q
  let l := s.qCore q
  if a = 0 then
    if s.unassigned l then some (l, 0) else none
  else if a = s.headline then
    ((s.cores.map (·.1)).find? fun n => s.coreRuns n && (s.core n).logical.contains (a, l)).map fun n => (n, 0)
  else
    ((s.cores.map (·.1)).find? fun n => s.coreRuns n && (s.core n).sideHolder = some (a, l) &&
      (s.core n).scrubbing.isNone && !s.testBound n).map fun n => (n, 1)

/-- Whether a command queue has a stream to bind: one that it has begun, or the next entry while no STOP is in
progress (R233, R234). -/
def State.streamReady (s : State) (q : Nat) : Bool :=
  let k := s.queue q
  s.qCreated q && s.qType q = 1 && s.qRunning q && k.bound.isNone && k.entries ≠ [] &&
    (k.begun || k.control = none)

/-- The queue of those ready for a context that comes next in ascending order after the one bound last (R233). -/
def nextTurn (last : Nat) (l : List Nat) : Option Nat :=
  (l.find? fun q => decide (last < q)).or l.head?

/-- The queues with a stream ready for context `x` of core `n`; a doubled core that turns away from a logical core takes
a queue of the other one (R341). -/
def State.readyFor (s : State) (n x : Nat) : List Nat :=
  let l := s.createdQueues.filter fun q => s.streamReady q && s.bindTarget q = some (n, x)
  match (s.core n).leaving with
  | some c =>
    let other := l.filter fun q => s.qCore q ≠ c
    if x = 1 || other = [] then l else other
  | none => l

/-- The queue bound last to a context. -/
def Core.rr (k : Core) (x : Nat) : Nat := if x = 0 then k.rr0 else k.rr1

/-- Binds the stream at the head of a queue's entries to a context. The stream takes the act's seed when it begins,
and starts from its last resume record or from its first bundle (R59, R340, R342, Table 8.11). -/
def State.bindStream (s : State) (q n x : Nat) (e : CmdEntry) : State :=
  let k := s.queue q
  let a := s.qAct q
  let seed := if k.begun then k.seed else BitVec.ofNat 64 (s.reg (Reg.qmActSeed a))
  let kind := s.qContext q
  let s := s.modQueue q fun k =>
    { k with bound := some (n, x), begun := true, seed := seed, entryStep := if k.begun then k.entryStep else k.step }
  let s := s.modCore n fun c => if x = 0 then { c with rr0 := q, leaving := none } else { c with rr1 := q }
  let s := s.modCtx n x fun c =>
    { SeqCtx.reset with queue := some q, kind := kind, act := a, near := e.near, base := e.stream, words := e.words,
                        entry := e.count, resume := e.resume, resumeKib := e.resumeKib, seed := seed, conds := k.conds,
                        sregs := c.sregs, preds := c.preds, lastAct := c.lastAct }
  s.loadRecord n x

/-- Whether the stream of a context stands at a resume point: before the bundle of its last resume record, or before
its first bundle, with every earlier effect complete (R159, R207, R231). -/
def State.atResume (s : State) (n x : Nat) : Bool :=
  let c := s.ctx n x
  match c.queue with
  | none => true
  | some q =>
    s.quiet n x && !c.ended &&
      (match (s.queue q).rec_ with | some r => r.off = c.off | none => c.word = 0 && c.off = (s.queue q).off)

/-- Sends the sideshow act away from context 1 of a core, if it is at a resume point (R231, R404). -/
def State.evictSide (s : State) (n : Nat) : State :=
  if s.atResume n 1 then (s.unbind n 1).modCore n fun k => { k with sideHolder := none } else s

/-- Makes way for an act 0 TEST stream: a sideshow binding leaves at its next resume point, and the first one that
comes afterwards is scrubbed (R404). -/
def State.makeWay (s : State) (q n : Nat) : State :=
  if s.qAct q = 0 ∧ s.qContext q = 2 then (s.evictSide n).modCtx n 1 fun c => { c with lastAct := none } else s

/-- STREAM_BIND: an entry whose checks failed completes without running; otherwise its stream is bound when its
context is free, no stream waits to be resumed there (R340), and its queue's turn has come (R205, R232, R233). A context is free
once every effect of its last stream is complete: R233 lets the next one issue earlier (DESIGN CHOICE, log 173). -/
def State.streamBind (s : State) (q : Nat) : State :=
  if !s.alive || !s.streamReady q then s
  else
    match (s.queue q).entries with
    | [] => s
    | e :: rest =>
      if e.bad ≠ [] then (s.modQueue q fun k => { k with entries := rest }).completeWith q e.count e.bad
      else
        match s.bindTarget q with
        | none => s
        | some (n, x) =>
          if (s.ctx n x).queue.isNone && (x = 1 || (s.core n).recover = []) && nextTurn ((s.core n).rr x) (s.readyFor n x) = some q then
            let t := s.makeWay q n
            if s.qContext q = 2 && !t.sideFree n then t else t.bindStream q n x e
          else s

/-! Completion. -/

/-- STREAM_END: the last bundle has retired and every effect of the stream is complete. The messages it consumed are
freed, its entry completes, and the queue takes back the stream offset and the step number (R136, R147, R167, R342). -/
def State.streamEnd (s : State) (n x : Nat) : State :=
  let c := s.ctx n x
  match c.queue with
  | none => s
  | some q =>
    if s.alive ∧ c.ended ∧ c.state ≠ .halted ∧ s.quiet n x ∧ c.notifies = [] ∧ s.qState q ≠ 7 then
      let s := s.freeCopies n x
      let s := s.modQueue q fun k =>
        { k with off := c.off, step := c.step, entries := k.entries.drop 1, bound := none, begun := false, rec_ := none,
                 conds := [] }
      let s := s.modCtx n x SeqCtx.vacate
      let codes := c.conds.map (·.1)
      (s.complete q c.entry (statusOf codes) (furtherConds codes ≠ [])).furtherEvents q (x = 1) c.conds
    else s

/-! Cue queues. -/

/-- CUE_ENTRY: the next entry of a running cue queue is applied as one write and completes; one that names a cue
outside its act's range completes with ACCESS_DENIED (R201, R202, R241). -/
def State.cueEntry (s : State) (q : Nat) : State :=
  if s.alive ∧ s.qCreated q ∧ s.qType q = 5 ∧ s.qRunning q ∧ (s.queue q).control = none ∧ 0 < s.qUsed q then
    let c := s.qCons q
    let bs := s.readEntry q c
    let e := fieldAt bs 0 2 % 512
    if s.cueAct e = s.qAct q then (s.cueEntryWrite e bs).complete q c 0 false else s.complete q c 0x03 false
  else s

/-! Meanings. -/

/-- COMMAND_ENTRY_FETCH. -/
def execCommandEntryFetch (q : Nat) (s : State) : Host.Outcome State Fault Refusal :=
  whenUnits s (okQueue q) (s.fetchEntry q)
/-- STREAM_BIND. -/
def execStreamBind (q : Nat) (s : State) : Host.Outcome State Fault Refusal :=
  whenUnits s (okQueue q) (s.streamBind q)
/-- STREAM_END. -/
def execStreamEnd (core ctx : Nat) (s : State) : Host.Outcome State Fault Refusal :=
  whenUnits s (okCore core && okCtx ctx) (s.streamEnd core ctx)
/-- CUE_ENTRY. -/
def execCueEntry (q : Nat) (s : State) : Host.Outcome State Fault Refusal :=
  whenUnits s (okQueue q) (s.cueEntry q)

end Sys2Proof.Machine
end

