-- ==== Sys2Proof/Machine/HostPort.lean ====
section
/-! DEFINITION. The host port's other accesses: the near-memory aperture (R222, R303), MSI-X (R247), EVT.TEST (R249)
and the Function Level Resets (R220). -/

namespace Sys2Proof.Machine

/-! The aperture. -/

/-- The near address behind an offset of a function's aperture. -/
def State.apertureAddr (s : State) (fn off : Nat) : Nat := s.fld (Reg.qmAperture fn) Fld.qmApertureBase / 2 ^ 24 * 2 ^ 24 + off

/-- Whether an access has 1 to 64 bytes within one 64-byte unit of the window, and meets near memory (R222, R174;
an access past the memory is a DESIGN CHOICE, log 44). -/
def State.apertureForm (s : State) (fn off len : Nat) : Bool :=
  let a := s.apertureAddr fn off
  decide (1 ≤ len) && decide (off % 64 + len ≤ 64) && decide (off + len ≤ 2 ^ 24) && decide (a + len ≤ nearSize)

/-- An act's Carousel scratch area, as base and size (R303, Table 10.8). -/
def State.scratchArea (s : State) (a : Nat) : Nat × Nat :=
  (s.reg (Reg.carScratch a), s.reg (Reg.carScratchSize a) * 2 ^ 20)

/-- Whether a range meets an act's Carousel scratch area. -/
def State.inScratch (s : State) (addr len : Nat) : Bool :=
  (List.range 9).any fun a => a ≠ 0 && rangesHit (addr, len) (s.scratchArea a)

/-- Whether a function may make an access (R222, R344). -/
def State.apertureOk (s : State) (fn addr len : Nat) (write : Bool) : Bool :=
  !s.nearAbsent addr len && (if fn = 0 then !s.inScratch addr len else s.nearWindow fn addr len write)

/-- The event of an access that may not be made; act 0 gets none for the Carousel's scratch (R222, R344). -/
def State.apertureDenied (s : State) (fn addr len : Nat) : State :=
  if fn = 0 ∧ s.nearAbsent addr len = false then s else s.deniedEvent fn

/-- A read through the aperture (R222). -/
def State.apertureRead (s : State) (fn off len : Nat) : State :=
  let a := s.apertureAddr fn off
  if !s.hostOk fn then s
  else if !s.apertureForm fn off len then s.emit (.ur fn off)
  else if !s.apertureOk fn a len false then (s.apertureDenied fn a len).emit (.data fn off (List.replicate len 0))
  else if s.marked .near a len then s.emit (.ep fn off)
  else s.emit (.data fn off (s.readMem .near a len))

/-- A write through the aperture (R222, R188). -/
def State.apertureWrite (s : State) (fn off : Nat) (data : Bytes) : State :=
  let a := s.apertureAddr fn off
  if !s.hostOk fn then s
  else if !s.apertureForm fn off data.length then s.emit (.ur fn off)
  else if !s.apertureOk fn a data.length true then s.apertureDenied fn a data.length
  else s.writeMem .near a data

/-! Interrupts. -/

/-- MSIX_TIMER: past its deadline an event queue with pending records interrupts (R200, R247). -/
def State.msixTimer (s : State) (q : Nat) : State :=
  match (s.queue q).evDeadline with
  | some d =>
    if s.alive ∧ d < s.now ∧ s.qCreated q ∧ s.qType q = 3 ∧ s.fld (Reg.evtMod q) Fld.evtModTimeNs ≠ 0 ∧
        (s.queue q).evStamps ≠ [] then s.evInterrupt q
    else s
  | none => s

/-- Unmasking a vector sends the message that waits (R247). -/
def State.msixUnmask (s : State) (fn vec : Nat) : State :=
  if !s.hostOk fn then s
  else
    let k := fn * 64 + vec
    let t := { s with msixMask := Sparse.put s.msixMask k false }
    if Sparse.get false s.msixPba k then { t with msixPba := Sparse.put t.msixPba k false }.emit (.msix fn vec) else t

/-- Masking a vector (R247). -/
def State.msixMaskOn (s : State) (fn vec : Nat) : State :=
  if s.hostOk fn then { s with msixMask := Sparse.put s.msixMask (fn * 64 + vec) true } else s

/-- EVT.TEST: a USER record with SX to act 0; EVT ignores writes while the selected queue is no event queue (R249). -/
def State.evtTest (s : State) (sx : Nat) : State :=
  if s.hostOk 0 ∧ (s.evtSelected 0).isSome then s.actEvent 0x03 0 0 (leBytes 8 sx) else s

/-! Function Level Reset. -/

/-- The created queues of an act. -/
def State.queuesOf (s : State) (a : Nat) : List Nat := s.createdQueues.filter fun q => s.queueAct q = some a

/-- A reset of a queue whatever control is in progress; one that resets already goes on. -/
def State.forceReset (s : State) (q : Nat) : State :=
  if s.qState q = 7 then s else (s.setFld (Reg.qmQState q) Fld.qmQStateBusy 0).resetQueue q

/-- Takes a sideshow act away from the cores that hold it, and has what it held there scrubbed (R210, R220). -/
def State.dropSideshow (s : State) (a : Nat) : State :=
  s.each (s.cores.map (·.1)) fun n s =>
    match (s.core n).sideHolder with
    | some h =>
      if h.1 = a then s.modCore n fun k => { k with sideHolder := none, scrubbing := some a } else s
    | none => s

/-- A Function Level Reset of an act's function: its queues reset, its cue entries are disarmed, it leaves every stream
context as its streams' resets end, and its hold is emptied (R220, R403). -/
def State.flr (s : State) (a : Nat) : State :=
  let s := s.each (s.queuesOf a) fun q s => s.forceReset q
  let s := s.each (List.range 512) fun e s =>
    if s.cueAct e = a then
      State.setFld { s with cueOld := Sparse.clear s.cueOld e (e + 1) } (Reg.cueCtl e) Fld.cueCtlEnable 0
    else s
  (s.dropSideshow a).setHold a { recs := [], dropped := 0, firstDrop := 0, lastDrop := 0 }

/-! Meanings. -/

/-- APERTURE_READ. -/
def execApertureRead (fn off len : Nat) (s : State) : Host.Outcome State Fault Refusal :=
  whenUnits s (okFn fn) (s.apertureRead fn off len)
/-- APERTURE_WRITE. -/
def execApertureWrite (fn off : Nat) (data : Bytes) (s : State) : Host.Outcome State Fault Refusal :=
  whenUnits s (okFn fn) (s.apertureWrite fn off data)
/-- MSIX_TIMER. -/
def execMsixTimer (q : Nat) (s : State) : Host.Outcome State Fault Refusal := whenUnits s (okQueue q) (s.msixTimer q)
/-- MSIX_UNMASK. -/
def execMsixUnmask (fn vec : Nat) (s : State) : Host.Outcome State Fault Refusal :=
  whenUnits s (okFn fn && okVec fn vec) (s.msixUnmask fn vec)
/-- MSIX_MASK. -/
def execMsixMask (fn vec : Nat) (s : State) : Host.Outcome State Fault Refusal :=
  whenUnits s (okFn fn && okVec fn vec) (s.msixMaskOn fn vec)
/-- EVT_TEST. -/
def execEvtTest (sx : Word64) (s : State) : Host.Outcome State Fault Refusal := whenUnits s true (s.evtTest sx.toNat)
/-- VF_FLR. -/
def execVfFlr (k : Nat) (s : State) : Host.Outcome State Fault Refusal :=
  whenUnits s (okAct k) (if s.hostOk k then s.flr k else s)
/-- PF_FLR. -/
def execPfFlr (s : State) : Host.Outcome State Fault Refusal :=
  whenUnits s true (if s.hostOk 0 then { s.each (List.range 9) fun a s => s.flr a with vfsOff := true } else s)

end Sys2Proof.Machine
end

