-- ==== Sys2Proof/Machine/Acts.lean ====
section
/-! DEFINITION. The headline act and its troupe (R204, R379), bubbles and pre-emption (R206, R207), the throughput
share and the binding of sideshow acts (R205, R214, R231), and the scrub (R208, R210). -/

namespace Sys2Proof.Machine

/-! The headline act. -/

/-- A request for a change of headline act, by act 0 (R204). -/
def State.headlineRequest (s : State) (v : Nat) : State :=
  let a := bits v 0 4
  if !s.hostOk 0 || !s.started || decide (8 < a) || !s.actEnabled a then s
  else
    (s.setFld Reg.sckHeadline Fld.sckHeadlineRequested a).setFld Reg.sckHeadline Fld.sckHeadlinePending
      (b2n (a ≠ s.headline))

/-- Whether a stream of an act is bound to either context of any core. -/
def State.actBound (s : State) (a : Nat) : Bool :=
  a ≠ 0 && s.cores.any fun p =>
    (p.2.ctx0.queue.isSome && p.2.ctx0.act = a) || (p.2.ctx1.queue.isSome && p.2.ctx1.act = a)

/-- Shows the role of every act (Table 7.8). -/
def State.showRoles (s : State) : State :=
  s.each (List.range 9) fun a s =>
    s.setFld (Reg.sckAct a) Fld.sckActRole
      (if a = 0 ∨ s.actEnabled a = false then 0 else if a = s.headline then 1 else 2)

/-- Gives every core of the headline troupe back: a core in service is unassigned (R204). -/
def State.freeTroupe (s : State) : State :=
  s.each (s.cores.map (·.1)) fun n s =>
    if (s.core n).logical = [] then s
    else
      (s.modCore n fun k => { k with logical := [], bubble := false, bubbleEnded := none,
                                     recover := [] }).showCore n 3

/-- The logical cores of act `a` whose home is die `d`, ascending. -/
def State.homed (s : State) (a d : Nat) : List Nat :=
  match s.layout? a with
  | some l => (indexed 0 l.troupe).filterMap fun p => if p.2 = d then some p.1 else none
  | none => []

/-- The cores of die `d` that a headline act can take: enabled, not fenced, bound to no act 0 stream (R379). -/
def State.freeCores (s : State) (d : Nat) : List Nat :=
  ((List.range 26).map fun i => 26 * d + i).filter fun n => s.unassigned n && (s.ctx n 0).queue.isNone

/-- Maps the headline act's logical cores die by die; one left over takes the later choices of R339 (R379). -/
def State.mapTroupe (s : State) (a : Nat) : State :=
  s.each (List.range 8) fun d s =>
    let l := s.homed a d
    let c := s.freeCores d
    let s := s.each (l.zip c) fun p s =>
      (s.modCore p.2 fun k => { k with logical := [(a, p.1)] }).showCore p.2 3
    s.each (l.drop c.length) fun i s => s.remapLogical a i d []

/-- Puts an act in force as the headline act, 0 for none, with its cores mapped. -/
def State.enthrone (s : State) (a : Nat) : State :=
  let s := (s.setFld Reg.sckHeadline Fld.sckHeadlineAct a).setFld Reg.sckHeadline Fld.sckHeadlinePending 0
  let s := s.freeTroupe
  let s := s.each (s.cores.map (·.1)) fun n s =>
    match (s.core n).sideHolder with
    | some h => if h.1 = a then s.modCore n fun k => { k with sideHolder := none } else s
    | none => s
  (if a = 0 then s else s.mapTroupe a).showRoles.countCores

/-- HEADLINE_CHANGE: a pending request takes effect once no stream of the old or the requested act is bound (R204). -/
def State.headlineChange (s : State) : State :=
  let a := s.fld Reg.sckHeadline Fld.sckHeadlineRequested
  if s.alive ∧ s.flag Reg.sckHeadline Fld.sckHeadlinePending ∧ s.actBound s.headline = false ∧ s.actBound a = false then
    s.enthrone a
  else s

/-! Bubbles. -/

/-- Whether context 0 waits as a bubble asks: WAIT_SEM, WAIT_RECV, WAIT_CUE or NO_STREAM (R206). -/
def State.ctx0Waits (s : State) (n : Nat) : Bool :=
  let c := s.ctx n 0
  c.queue.isNone || c.wait.isSome || c.cueWait.isSome ||
    (s.waitsRecv n 0 && c.cur.isNone && c.state ≠ .halted)

/-- BUBBLE_BEGIN: context 0 waits and its units are idle; the BUBBLE_ENTRY cycles have passed (R206). -/
def State.bubbleBegin (s : State) (n : Nat) : State :=
  let k := s.core n
  if s.alive ∧ s.coreRuns n ∧ s.headlineCore n ∧ k.bubble = false ∧ s.ctx0Waits n ∧ k.fwd = [] ∧ k.bwd = [] ∧
      k.vecq = [] ∧ k.rowq = [] ∧ k.sort.running = none then
    s.modCore n fun k => { k with bubble := true, bubbleEnded := none }
  else s

/-- BUBBLE_END: the wait has ended, or a headline stream has been bound; context 1 issues nothing more (R207). -/
def State.bubbleEnd (s : State) (n : Nat) : State :=
  if s.alive ∧ (s.core n).bubble ∧ s.ctx0Waits n = false then
    let c := s.ctx n 1
    let s := s.modCore n fun k => { k with bubble := false, bubbleEnded := some s.now }
    if c.queue.isSome then
      (s.modCtx n 1 fun c => if c.state = .halted then c else { c with state := .preempted }).addOpen
        (Reg.sckPreempt c.act) Fld.sckPreemptPreempts 1
    else s
  else s

/-- PREEMPT_ABANDON: PREEMPT_LIMIT cycles after the bubble ended, context 1's unfinished product, vector and row work is
abandoned (R207, R93). -/
def State.preemptAbandon (s : State) (n : Nat) : State :=
  match (s.core n).bubbleEnded with
  | some t =>
    let c := s.ctx n 1
    let busy := s.ctxProducts n 1 ≠ [] || s.ctxOps n 1 ≠ [] ||
      (match c.cur with | some b => b.todo.any fun p => decide (3 ≤ p.1) && decide (p.1 ≤ 6) | none => false)
    if s.alive ∧ s.fld Reg.sckSsCtl Fld.sckSsCtlPreemptLimit * 625 ≤ (s.now - t) * 1000 ∧ busy then
      let s := (s.abandonUnits n 1).modCtx n 1 fun c => { c with cur := none }
      let s := s.modCore n fun k => { k with abandoned := true, bubbleEnded := none }
      s.addOpen (Reg.sckPreempt c.act) Fld.sckPreemptAborts 1
    else s
  | none => s

/-- SIDESHOW_RESUME: after an abandonment and its transfers, context 1 restarts from its last resume record (R207). -/
def State.sideshowResume (s : State) (n : Nat) : State :=
  if s.alive ∧ (s.core n).abandoned ∧ s.ctxXfers n 1 = [] then
    let s := s.modCore n fun k => { k with abandoned := false }
    ((s.dropWaits n 1).modCtx n 1 fun c => { c with sigs := [], notifies := [], lib := none }).loadRecord n 1
  else s

/-! Shares. -/

/-- Whether an act is a sideshow act (R204). -/
def State.isSideshow (s : State) (a : Nat) : Bool := a ≠ 0 && decide (a < 9) && s.actEnabled a && a ≠ s.headline

/-- A GUARANTEE_YIELDED event (R215): the rungs, the status and the deadline. -/
def State.yielded (s : State) (a broken kept status deadline : Nat) : State :=
  s.actEvent 0x0D 0x60 a
    (leBytes 1 broken ++ leBytes 1 kept ++ leBytes 1 status ++ List.replicate 5 0 ++ leBytes 8 deadline)

/-- Stores a sideshow act's share, and reports one below MIN_SHARE with a stream ready throughout (R214). -/
def State.storeShare (s : State) (h : ShareHeld) : State :=
  if s.isSideshow h.act = false then s
  else
    let starved := h.ready && decide (h.share < s.fld (Reg.sckAct h.act) Fld.sckActMinShare)
    let s := s.setFld (Reg.sckShare h.act) Fld.sckShareLast h.share
    let s := s.setFld (Reg.sckShare h.act) Fld.sckShareYielded (b2n starved)
    if starved then s.yielded h.act 5 4 (openStatus (Config.yieldStatus 5 4)) 0 else s

/-- How far an act stands below its MIN_SHARE. -/
def State.deficit (s : State) (a : Nat) : Int :=
  (s.fld (Reg.sckAct a) Fld.sckActMinShare : Int) - (s.fld (Reg.sckShare a) Fld.sckShareLast : Int)

/-- The home compute die of a logical core (R231, R372). -/
def State.homeDie (s : State) (a l : Nat) : Option Nat :=
  match s.layout? a with | some y => y.troupe[l]? | none => none

/-- Whether a sideshow logical core is held by context 1 of some core. -/
def State.sideHeld (s : State) (a l : Nat) : Bool := s.cores.any fun p => p.2.sideHolder = some (a, l)

/-- Whether some other sideshow act stands further below its MIN_SHARE and has a stream ready, on die `d`, for a
logical core that no core holds (R205). -/
def State.outbid (s : State) (a d : Nat) : Bool :=
  s.createdQueues.any fun q =>
    let b := s.qAct q
    b ≠ a && s.isSideshow b && s.streamReady q && s.homeDie b (s.qCore q) = some d && !s.sideHeld b (s.qCore q) &&
      decide (s.deficit a < s.deficit b)

/-- Whether context 1 of core `n` may be bound to the act of queue `q` now (R172, R205, R231, R341, R404). -/
def State.mayRebind (s : State) (n q : Nat) : Bool :=
  let a := s.qAct q
  s.isSideshow a && s.streamReady q && s.coreState n = 3 && s.homeDie a (s.qCore q) = some (coreDie n) &&
    (s.core n).sbSideshow ≠ 0 && !s.testBound n && s.atResume n 1 && !s.outbid a (coreDie n) &&
    s.cores.all fun p => p.2.sideHolder ≠ some (a, s.qCore q) || s.atResume p.1 1

/-- Binds context 1 of a core to a sideshow logical core; a change of act is scrubbed first, and so is whoever follows a scrub
that has not ended (R205, R210, R231). -/
def State.rebind (s : State) (r : Rebind) : State :=
  if !s.mayRebind r.core r.queue then s
  else
    let h := (s.qAct r.queue, s.qCore r.queue)
    let s := s.each (s.cores.map (·.1)) fun n s =>
      if (s.core n).sideHolder = some h ∧ n ≠ r.core then s.evictSide n else s
    let s := if (s.core r.core).sideHolder = some h then s else s.evictSide r.core
    s.modCore r.core fun k =>
      { k with sideHolder := some h, scrubbing := if k.scrubbing.isNone && k.ctx1.lastAct = some h.1 then none else some h.1 }

/-- SHARE_WINDOW_END. -/
def State.shareWindowEnd (s : State) (held : List ShareHeld) (rebinds : List Rebind) : State :=
  if s.alive then (s.each held fun h s => s.storeShare h).each rebinds fun r s => s.rebind r
  else s

/-! The scrub. -/

/-- What the scrub of R210 zeroes. -/
def Core.scrub (k : Core) (a : Nat) : Core :=
  let b := stageSize - k.sbSideshow * 2 ^ 16
  { k with
      stage := Sparse.clear k.stage b stageSize
      stagePoison := Sparse.clear k.stagePoison (b / 8) (stageSize / 8)
      packEnds := k.packEnds.filter fun e => decide (e < b)
      acc := Sparse.clear k.acc (524288 - 4096 * k.accSs) 524288
      accPoison := Sparse.clear k.accPoison (524288 - 4096 * k.accSs) 524288
      side := Sparse.clear k.side (16384 - 1024 * k.sideSs) 16384
      vregs := Sparse.clear k.vregs 64 128
      masks := Sparse.clear k.masks 8 16
      alpha := Sparse.clear k.alpha 128 256
      ctx1 := { SeqCtx.reset with state := .noStream, lastAct := some a }
      scrubbing := none }

/-- SCRUB_COMPLETE: on a core of the headline troupe a scrub goes on in bubbles only (R210). Where it has delayed a stream of
the act, isolation was kept before throughput (R215, Table 7.7). -/
def State.scrubDone (s : State) (n : Nat) : State :=
  match (s.core n).scrubbing with
  | some a =>
    if s.alive ∧ ((s.core n).bubble ∨ s.headlineCore n = false) ∧ (s.ctx n 1).queue = none ∧ s.ctxXfers n 1 = [] ∧
        s.ctxProducts n 1 = [] ∧ s.ctxOps n 1 = [] then
      let s := s.modCore n fun k => k.scrub a
      if s.readyFor n 1 = [] then s else s.yielded a 5 2 (openStatus (Config.yieldStatus 5 2)) 0
    else s
  | none => s

/-- SS_REGION_APPLY: ACC_SS and SIDE_SS take effect on a core that holds no sideshow act; the next one is scrubbed first
(R208, R209; log 50). -/
def State.regionApply (s : State) (n : Nat) : State :=
  if s.sideFree n then
    (s.modCore n fun k =>
      { k with accSs := s.fld Reg.sckSsCtl Fld.sckSsCtlAccSs, sideSs := s.fld Reg.sckSsCtl Fld.sckSsCtlSideSs }).modCtx
        n 1 fun c => { c with lastAct := none }
  else s

/-! Meanings. -/

/-- HEADLINE_REQUEST. -/
def execHeadlineRequest (val : Nat) (s : State) : Host.Outcome State Fault Refusal :=
  whenUnits s true (s.headlineRequest val)
/-- HEADLINE_CHANGE. -/
def execHeadlineChange (s : State) : Host.Outcome State Fault Refusal := whenUnits s true s.headlineChange
/-- BUBBLE_BEGIN. -/
def execBubbleBegin (core : Nat) (s : State) : Host.Outcome State Fault Refusal :=
  whenUnits s (okCore core) (s.bubbleBegin core)
/-- BUBBLE_END. -/
def execBubbleEnd (core : Nat) (s : State) : Host.Outcome State Fault Refusal :=
  whenUnits s (okCore core) (s.bubbleEnd core)
/-- PREEMPT_ABANDON. -/
def execPreemptAbandon (core : Nat) (s : State) : Host.Outcome State Fault Refusal :=
  whenUnits s (okCore core) (s.preemptAbandon core)
/-- SIDESHOW_RESUME. -/
def execSideshowResume (core : Nat) (s : State) : Host.Outcome State Fault Refusal :=
  whenUnits s (okCore core) (s.sideshowResume core)
/-- SHARE_WINDOW_END. -/
def execShareWindowEnd (held : List ShareHeld) (rebinds : List Rebind) (s : State) :
    Host.Outcome State Fault Refusal :=
  whenUnits s (held.all (fun h => okFn h.act) && rebinds.all (fun b => okCore b.core && okQueue b.queue))
    (s.shareWindowEnd held rebinds)
/-- SCRUB_COMPLETE. -/
def execScrubComplete (core : Nat) (s : State) : Host.Outcome State Fault Refusal :=
  whenUnits s (okCore core) (s.scrubDone core)
/-- SS_REGION_APPLY. -/
def execSsRegionApply (core : Nat) (s : State) : Host.Outcome State Fault Refusal :=
  whenUnits s (okCore core) (s.regionApply core)
/-- CUE_WRITE: a write of word 0 to 3 of a cue entry by the function of its act; any other write is ignored with
ACCESS_DENIED (R201, R202, R250). -/
def execCueWrite (fn entry word val : Nat) (s : State) : Host.Outcome State Fault Refusal :=
  whenUnits s (okFn fn && okCue entry)
    (if !s.hostOk fn || (fn = 0 && !s.started) then s
     else if s.cueAct entry = fn then s.cueWordWrite entry word val else s.deniedEvent fn)

end Sys2Proof.Machine
end

