-- ==== Sys2Proof/Machine/BlackBox.lean ====
section
/-! DEFINITION. The boot flash (R369, R384, R395), the mirror of the black box in it (R360), the commands that freeze and
thaw the record (R361), and the power warning (R362). -/

namespace Sys2Proof.Machine

/-! The flash. -/

/-- The boot flash, 64 MiB (R369). -/
def flashSize : Nat := 2 ^ 26
/-- An erase sector, 64 KiB. -/
def sectorSize : Nat := 65536
/-- The mirror ring in the flash, and its entries (R360, Table 13.2). -/
def ringBase : Nat := 0x3000000
/-- The ring's entries. -/
def ringEntries : Nat := 262144

/-- Bytes of the flash; an erased byte reads 0xFF. -/
def State.flashRead (s : State) (a n : Nat) : Bytes := readCells erasedByte s.flash a n
/-- Writes bytes of the flash. -/
def State.flashWrite (s : State) (a : Nat) (bs : Bytes) : State := { s with flash := writeCells erasedByte s.flash a bs }
/-- Erases the sector that holds an address. -/
def State.flashErase (s : State) (a : Nat) : State :=
  { s with flash := Sparse.clear s.flash (a / sectorSize * sectorSize) (a / sectorSize * sectorSize + sectorSize) }

/-- Whether PWR_WARN_N is low, so that an erase in progress is suspended (R362). -/
def State.warned (s : State) : Bool := s.power.warnAt.isSome

/-- Whether the flash is deselected: 500 µs after the power warning (R362). -/
def State.flashOff (s : State) : Bool :=
  match s.power.warnAt with | some t => decide (t + 500000 ≤ s.now) | none => false

/-- The firmware bank or Playbill slot that a flash address lies in: 0 and 1 the banks, 2 and 3 the slots (R369). -/
def flashArea (a : Nat) : Option Nat :=
  if a < 0x1000000 then some 0
  else if a < 0x2000000 then some 1
  else if a < 0x2800000 then some 2
  else if a < 0x3000000 then some 3
  else none

/-- Whether an area is in use: the bank that was booted, the slot the module started on (Table 13.2). -/
def State.areaInUse (s : State) (x : Nat) : Bool :=
  if x < 2 then s.flag Reg.bootStatus Fld.bootStatusFwOk && s.fld Reg.bootStatus Fld.bootStatusFwBank = x
  else s.fld Reg.bootStatus Fld.bootStatusPbSlot = x - 1

/-- The area that a firmware update of a component writes: the bank or slot that is not in use (R395). -/
def State.updateArea (s : State) (component : Nat) : Nat :=
  if component = 1 then (if s.areaInUse 0 then 1 else 0) else (if s.areaInUse 2 then 3 else 2)

/-- Whether a host erase or program at an address is denied (Table 13.2, R395). -/
def State.flashDenied (s : State) (a : Nat) : Bool :=
  match flashArea a with
  | some x => s.areaInUse x || s.update.any fun c => s.updateArea c = x
  | none => true

/-- The page buffer BOOT.FLASH_BUF. -/
def State.flashBuf (s : State) : Bytes := (List.range 32).flatMap fun k => leBytes 8 (s.reg (Reg.bootFlashBuf k))

/-- Whether act 0 reaches the BOOT and BBX blocks: in every phase (R368, R376). -/
def State.bootOk (s : State) : Bool := s.hostOk 0

/-- A flash command (Table 13.10): 1 erase, 2 program, 3 read. It waits for a mirror page that is being programmed. -/
def State.flashCmd (s : State) (cmd : Nat) : State :=
  let a := s.fld Reg.bootFlashAddr Fld.bootFlashAddrAddr / 256 * 256
  if s.bootOk = false ∨ s.flag Reg.bootFlashCmd Fld.bootFlashCmdBusy = true then s
  else if cmd ≠ 3 ∧ s.flashDenied a then s.setFld Reg.bootFlashCmd Fld.bootFlashCmdDenied 1
  else
    let op : FlashOp := { cmd := cmd, addr := a, data := s.flashBuf, started := s.mirror.programming.isNone }
    State.setFld { s with flashOp := some op } Reg.bootFlashCmd Fld.bootFlashCmdBusy 1

/-- FLASH_CMD_DONE: the command's effect, and BUSY clears. Erasing and programming rest during a power warning (R362,
R384). -/
def State.flashDone (s : State) : State :=
  match s.flashOp with
  | none => s
  | some op =>
    if s.alive = false ∨ op.started = false ∨ (op.cmd ≠ 3 ∧ s.warned = true) ∨ s.flashOff = true then s
    else
      let s := match op.cmd with
        | 1 => s.flashErase op.addr
        | 2 => s.flashWrite op.addr op.data
        | _ => s.each (List.range 32) fun k s => s.setReg (Reg.bootFlashBuf k) (ofLe (s.flashRead (op.addr + 8 * k) 8))
      State.setFld { s with flashOp := none } Reg.bootFlashCmd Fld.bootFlashCmdBusy 0

/-! The mirror. -/

/-- The ring entry of the next write. -/
def State.mirrorHead (s : State) : Nat := s.fld Reg.bbxFlash Fld.bbxFlashHead

/-- The entries that fit the page at the write point. -/
def State.pageRoom (s : State) : Nat := 8 - s.mirrorHead % 8

/-- MIRROR_PAGE_PROGRAM: a page that is full, or whose first entry is 1 ms old, or any while the record is frozen, is
programmed (R360, R361, R362). A page ends at its boundary in the ring (DEDUCED, log 86). -/
def State.mirrorProgram (s : State) : State :=
  let m := s.mirror
  let due := decide (s.pageRoom ≤ m.unflushed.length) || s.flag Reg.bbxStatus Fld.bbxStatusFrozen ||
    m.unflushed.head?.any fun e => decide (e.1 + 1000000 ≤ s.now)
  if m.active ∧ m.programming = none ∧ m.unflushed ≠ [] ∧ due ∧ s.flashOff = false then
    { s with mirror := { m with programming := some ((m.unflushed.take s.pageRoom).map (·.2))
                                unflushed := m.unflushed.drop s.pageRoom } }
  else s

/-- The sector ahead of the write point is kept erased: it is erased as the write point enters a sector (R360). -/
def State.mirrorAhead (s : State) : State :=
  let h := s.mirrorHead
  if h % 2048 = 0 then s.flashErase (ringBase + 32 * ((h + 2048) % ringEntries)) else s

/-- MIRROR_PAGE_DONE: the page's entries stand in the ring, and a host command that waited starts (R360, R384). -/
def State.mirrorDone (s : State) : State :=
  match s.mirror.programming with
  | none => s
  | some l =>
    let s := { s with mirror := { s.mirror with programming := none } }
    let s := { s with flashOp := s.flashOp.map fun op => { op with started := true } }
    if s.flashOff then s
    else
      let h := s.mirrorHead
      let s := s.flashWrite (ringBase + 32 * h) l.flatten
      let s := s.setFld Reg.bbxFlash Fld.bbxFlashHead ((h + l.length) % ringEntries)
      let s := s.setFld Reg.bbxFlash Fld.bbxFlashHeadSeq (fieldAt (l.getLastD []) 8 4)
      s.mirrorAhead

/-- The words of the ring entry that FLASH_SEL selects. A read of an entry whose page is being programmed waits until
the page is done (R362), so it answers what the page then holds (DEDUCED, log 172). -/
def State.flashData (s : State) (k : Nat) : Nat :=
  let e := s.fld Reg.bbxFlashSel Fld.bbxFlashSelEntry
  match (s.mirror.programming.getD [])[(e + ringEntries - s.mirrorHead) % ringEntries]? with
  | some bs => fieldAt bs (8 * k) 8
  | none => ofLe (s.flashRead (ringBase + 32 * e + 8 * k) 8)

/-- An entry of the ring that holds a record: its SEQ. An erased one holds none. -/
def State.ringSeq (s : State) (i : Nat) : Option Nat :=
  let bs := s.flashRead (ringBase + 32 * i) 32
  if bs.all (fun b => b = erasedByte) then none else some (fieldAt bs 8 4)

/-- The entry with the highest SEQ, with that SEQ. Only cells that are listed can belong to one. -/
def State.ringNewest (s : State) : Option (Nat × Nat) :=
  (s.flash.filterMap fun c =>
      if ringBase ≤ c.1 ∧ c.1 < ringBase + 32 * ringEntries then some ((c.1 - ringBase) / 32) else none).eraseDups.foldl
    (fun best i => match s.ringSeq i, best with
      | none, b => b
      | some q, none => some (i, q)
      | some q, some (j, r) => if r < q then some (i, q) else some (j, r)) none

/-- Mirroring begins: HEAD follows the entry with the highest SEQ, which the record's series continues, and a BOOT
entry is written (R360). -/
def State.mirrorStart (s : State) : State :=
  let s := match s.ringNewest with
    | some (i, q) =>
      let s := s.setFld Reg.bbxFlash Fld.bbxFlashHead ((i + 1) % ringEntries)
      let s := s.setFld Reg.bbxFlash Fld.bbxFlashHeadSeq q
      s.setFld Reg.bbxStatus Fld.bbxStatusSeqNext (q + 1)
    | none => s
  let s := { s with mirror := { s.mirror with active := true } }
  if s.flag Reg.bbxStatus Fld.bbxStatusFrozen then s else s.mirrorRoom.bbxMarker 0x82 0

/-! Freezing. -/

/-- A FAULT event of the module itself, with a severity that the spec states. -/
def State.moduleFault (s : State) (kind severity : Nat) : State :=
  let st := (openStatus (Config.faultStatus kind))
  s.broadcast [] (plainRec 0x0C severity st 0 s.now (openPayload 0x0C st kind s.now))

/-- PWR_WARN_ASSERT: 1 µs after PWR_WARN_N fell, its FAULT event of severity 3 and the freeze with cause 3 (R361, R362). -/
def State.powerWarn (s : State) : State :=
  if s.power.pwrOk = false ∨ s.power.inReset = true ∨ s.warned = true then s
  else
    let s := { s with power := { s.power with warnAt := some s.now } }
    ((s.setFld Reg.pwrStatus Fld.pwrStatusWarnIn 1).moduleFault 6 3).bbxFreeze 3

/-- PWR_WARN_N_RISE: WARN_IN clears; the record stays frozen until THAW (R362). -/
def State.powerWarnEnd (s : State) : State :=
  if s.warned then
    State.setFld { s with power := { s.power with warnAt := none } } Reg.pwrStatus Fld.pwrStatusWarnIn 0
  else s

/-! Meanings. -/

/-- FLASH_ERASE. -/
def execFlashErase (s : State) : Host.Outcome State Fault Refusal := whenUnits s true (s.flashCmd 1)
/-- FLASH_PROGRAM. -/
def execFlashProgram (s : State) : Host.Outcome State Fault Refusal := whenUnits s true (s.flashCmd 2)
/-- FLASH_READ. -/
def execFlashRead (s : State) : Host.Outcome State Fault Refusal := whenUnits s true (s.flashCmd 3)
/-- FLASH_CMD_DONE. -/
def execFlashCmdDone (s : State) : Host.Outcome State Fault Refusal := whenUnits s true s.flashDone
/-- MIRROR_PAGE_PROGRAM. -/
def execMirrorPageProgram (s : State) : Host.Outcome State Fault Refusal := whenUnits s true s.mirrorProgram
/-- MIRROR_PAGE_DONE. -/
def execMirrorPageDone (s : State) : Host.Outcome State Fault Refusal := whenUnits s true s.mirrorDone
/-- FREEZE: with cause 4, by act 0 (R361). -/
def execFreeze (s : State) : Host.Outcome State Fault Refusal :=
  whenUnits s true (if s.bootOk then s.bbxFreeze 4 else s)
/-- THAW: by act 0 (R361). -/
def execThaw (s : State) : Host.Outcome State Fault Refusal :=
  whenUnits s true (if s.bootOk then s.bbxThaw else s)
/-- PWR_WARN_ASSERT. -/
def execPwrWarnAssert (s : State) : Host.Outcome State Fault Refusal := whenUnits s true s.powerWarn
/-- PWR_WARN_N_RISE. -/
def execPwrWarnNRise (s : State) : Host.Outcome State Fault Refusal := whenUnits s true s.powerWarnEnd

end Sys2Proof.Machine
end

