-- ==== Sys2Proof/Machine/Matrix.lean ====
section
/-! DEFINITION. The matrix engines: issuing a product (R151, R152), weight loads and activation rows (R77 to R85),
completion and accumulation descriptors (R94), the expanders (R96 to R98), residue faults (R100 to R102). -/

namespace Sys2Proof.Machine

/-! Arithmetic at the taps. -/

/-- The group size of a product: that of its block-scaled operand, or 128 (R80). -/
def Product.g (p : Product) : Nat :=
  let a := fmtG p.aview.fmt
  let w := fmtG p.wview.fmt
  if w ≠ 0 then w else if a ≠ 0 then a else 128

/-- A code value or escape value as an exact number with the group's scale. -/
def El.scaled (e : El) : Dy :=
  match e.x with
  | .val v => v.mul (oxsValue e.scale)
  | .esc c => (ox16Value c).getD Dy.zero
  | .nan => Dy.zero

/-- The code value of an element that is not an escape. -/
def El.code (e : El) : Dy := match e.x with | .val v => v | _ => Dy.zero

/-- v of R81 over the pairs of one span, decided in the order of R82; none is NaN. -/
def tapValue (ps : List (El × El)) : Option Dy :=
  if ps.any fun q => q.1.poison || q.2.poison then none
  else if ps.any fun q => q.1.isNan || q.2.isNan then none
  else
    match ps with
    | [] => some Dy.zero
    | (a, w) :: _ =>
      if a.scale = 0 ∨ w.scale = 0 then some Dy.zero
      else
        let plain := ps.filter fun q => !q.1.isEsc && !q.2.isEsc
        let esc := ps.filter fun q => q.1.isEsc || q.2.isEsc
        let ssum := plain.foldl (fun t q => t.add (q.1.code.mul q.2.code)) Dy.zero
        let xsum := esc.foldl (fun t q => t.add (q.1.scaled.mul q.2.scaled)) Dy.zero
        some (((ssum.mul (oxsValue a.scale)).mul (oxsValue w.scale)).add xsum)

/-- round(acc + v), or NaN (R81). -/
def tapAdd (acc : Nat) (v : Option Dy) : Nat :=
  match v with
  | none => (F32.add 0 acc F32.nan).1
  | some d =>
    if F32.isNan acc then F32.quiet acc
    else if F32.isInf acc then acc
    else (F32.roundDy 0 ((F32.value acc).add d) false).1

/-- An entry after the live taps of one activation row (R80, R81): `mode` 0 WRITE, 1 ADD, 2 SUB. -/
def tapRow (mode acc : Nat) (spans : List (List (El × El))) : Nat :=
  (indexed 0 spans).foldl (fun acc p =>
    let v := tapValue p.2
    let v := if mode = 2 then v.map Dy.neg else v
    if mode = 0 ∧ p.1 = 0 then
      match v with | none => F32.nan | some d => (F32.roundDy 0 d false).1
    else tapAdd acc v) acc

/-- The spans of a pass: 128 / G runs of the pairs at rows below K_p. An activation element at a row past K_p − 1 enters
no span, even a NaN (DESIGN CHOICE, log 149). -/
def spansOf (g : Nat) (a w : List El) : List (List (El × El)) :=
  let ps := a.zip w
  (List.range (128 / g)).map fun t => (ps.drop (t * g)).take g

/-! Engines. -/

/-- Replaces a product of an engine. -/
def Core.setProduct (k : Core) (e : Nat) (p : Product) : Core :=
  k.setEngine e ((k.engine e).map fun q => if q.idx = p.idx then p else q)

/-- Digits of an operand element (Table 3.1). -/
def digits (f : Nat) : Nat := match fmtType f with | 1 => 1 | 2 => 2 | _ => 4

/-- Element positions of a packed stream that line `i` needs, counted from its first. -/
def Product.lineNeeded (p : Product) (wgt : Bool) (i : Nat) : Nat :=
  let v := if wgt then p.wview else p.aview
  if (if wgt then p.mirWgt else p.mirAct) then (p.k0 + p.kp - 1) * v.elemPitch + i + 1
  else i * v.elemPitch + p.k0 + p.kp

/-- Whole rows of an activation queue, in bytes of digits: 64 × d per row (R96). -/
def State.actLevel (s : State) (n e : Nat) (p : Product) : Nat :=
  let x := (s.core n).xp (xpPort e false)
  64 * digits p.aview.fmt * ((List.range 128).filter fun i =>
    decide (p.row + i < p.rows) && decide (p.lineNeeded false (p.row0 + p.row + i) ≤ x.first + x.elems.length)).length

/-! Issue. -/

/-- The pairs of Table 3.2. -/
def pairOk (p : Product) : Bool :=
  let w := fmtType p.wview.fmt
  let a := fmtType p.aview.fmt
  (w = 1 && (a = 1 || a = 2)) || (w = 2 && a = 2) || (w = 4 && a = 4)

/-- The checks of a view at K0 (R152). -/
def View.ok (v : View) (k0 : Nat) : Bool :=
  fmtLegal v.fmt && (fmtG v.fmt = 0 || k0 % fmtG v.fmt = 0) &&
    (!v.packed || (v.elemPitch ≠ 0 && v.elemPitch % unitG v.fmt = 0))

/-- The checks of a generated operand (R127, R129). A packed view holds no addresses to generate (DEDUCED,
log 33). -/
def Product.genOk (p : Product) : Bool :=
  match p.gen with
  | none => true
  | some g =>
    let v := if g.wgtPort then p.wview else p.aview
    let mir := if g.wgtPort then p.mirWgt else p.mirAct
    !v.packed && (fmtG v.fmt = 0 || (g.c32 && fmtG v.fmt = 32 && !mir))

/-- Whether every destination entry lies in [lo, hi) (R91, R152). -/
def Product.destIn (p : Product) (lo hi : Int) : Bool :=
  p.arrayList.all fun j => decide (lo ≤ p.entry 0 j 0) && decide (p.entry (p.rows - 1) j (p.cols - 1) < hi)

/-- Whether the destination lies in the engine's partition; within a sideshow region R91 does not apply (R208). -/
def State.destOk (s : State) (n x e : Nat) (p : Product) : Bool :=
  let split : Int := 32768 * (s.core n).accSplit
  if x = 1 ∧ (s.ctx n x).kind = 1 then p.destIn 0 524288
  else if e = 0 then p.destIn 0 split else p.destIn split 524288

/-- The faults at issue of a product (R39, R74 to R76, R86, R91, R95, R127, R129, R151, R152). -/
def State.productFaults (s : State) (n x e w : Nat) (raw : Bytes) (p : Product) : List Nat :=
  let r := s.stageRegion n x
  let acdBad := match p.acd with
    | some a => bits (s.reg (Reg.mxAcd0 n a)) 48 16 = 0 || bit (s.reg (Reg.mxAcd1 n a)) 16
    | none => false
  let bad := prodReserved raw || !p.aview.ok p.k0 || !p.wview.ok p.k0 || !pairOk p ||
    (fmtG p.aview.fmt ≠ 0 && fmtG p.wview.fmt ≠ 0 && fmtG p.aview.fmt ≠ fmtG p.wview.fmt) ||
    !p.genOk || !s.destOk n x e p || acdBad || bits w 47 2 = 3
  let denied := (p.portRanges false ++ p.portRanges true).any (fun q => decide (r.2 < q.1 + q.2)) ||
    !p.destIn 0 (s.accRegion n x).2
  (if bad then [0x02] else []) ++ (if denied then [0x03] else [])

/-- Issues a product to engine `e` after its descriptor checks. A generator block that the bundle's own DIN has changed
since decode is judged again as it stands now (DESIGN CHOICE, log 153). -/
def State.issueProduct (n x e : Nat) (b : OpenBundle) (w : Nat) (s : State) : State :=
  let r := s.stageRegion n x
  let a := b.sreg (bits w 31 5)
  let ga := b.sreg (bits w 26 5)
  let gen := bit w 44
  if a % 64 ≠ 0 ∨ (gen ∧ ga % 32 ≠ 0) then s.slotFault n x b (3 + e) 0x02
  else if r.2 < a + 64 ∨ (gen ∧ r.2 < ga + 32) then s.slotFault n x b (3 + e) 0x03
  else
    let raw := s.readMem (.stage n) (r.1 + a) 64
    let graw := s.readMem (.stage n) (r.1 + ga) 32
    let g := if gen then some (genBlock graw (bit w 43)) else none
    let p := parseProduct (s.core n).nextXfer x (s.ctx n x).act b.off b.tag w raw g
    let faults := s.productFaults n x e w raw p ++
      (match g with | some g => if genReserved graw || !g.ok (e = 0) then [0x02] else [] | none => [])
    if faults ≠ [] then s.slotFaultsAt n x b (3 + e) faults
    else
      s.modCore n fun k => { k.setEngine e (k.engine e ++ [p]) with nextXfer := k.nextXfer + 1 }

/-- Whether the product that the slot would issue writes the region of a descriptor that the Carousel holds (R278). A
product issued before the handover writes on: its result may be the one that completes the descriptor (DEDUCED, log 145). -/
def State.productHeld (n x : Nat) (s : State) (b : OpenBundle) (w : Nat) : Bool :=
  let base := (s.stageRegion n x).1
  let raw := s.readMem (.stage n) (base + b.sreg (bits w 31 5)) 64
  let g := if bit w 44 then some (genBlock (s.readMem (.stage n) (base + b.sreg (bits w 26 5)) 32) (bit w 43)) else none
  (s.core n).acdHeld ≠ [] &&
    s.regionHeld n ((parseProduct 0 x (s.ctx n x).act b.off b.tag w raw g).entries.map ((s.accRegion n x).1 + ·))

/-- The descriptor and the generator block are read once no DIN in flight will write them (R149); a held region is waited
for (R278). -/
def State.productReady (n x : Nat) (s : State) (b : OpenBundle) (w : Nat) : Bool :=
  let base := (s.stageRegion n x).1
  !State.productHeld n x s b w && !s.stageReadWaits n (s.core n).nextXfer
    ((base + b.sreg (bits w 31 5), 64) :: (if bit w 44 then [(base + b.sreg (bits w 26 5), 32)] else []))

/-! Loads and rows. -/

/-- A poisoned group consumed by a product: POISON in the core, NUMERIC_POISON in the bundle (R63). -/
def State.consumePoison (s : State) (n : Nat) (p : Product) (l : List El) : State :=
  if l.any El.poison then (s.raise n flPoison).note n p.ctx 0x20 p.off p.tag else s

/-- Whether the elements of a port's lines are complete: expanded, or written by the transfers before it. -/
def State.portReady (s : State) (n e : Nat) (p : Product) (wgt : Bool) (need : Nat) : Bool :=
  let v := if wgt then p.wview else p.aview
  if v.packed then
    let x := (s.core n).xp (xpPort e wgt)
    decide (need ≤ x.first + x.elems.length)
  else
    !s.stageReadWaits n p.idx ((p.portRanges wgt).map fun r => ((s.stageRegion n p.ctx).1 + r.1, r.2))

/-- Whether the arrays still hold the weight tile that product `p` names, with the weights `w` that a load would enter: a
product that follows another on the same tile reuses its weights and costs no load (R90; DESIGN CHOICE, log 151). -/
def Core.holdsTile (k : Core) (e : Nat) (p : Product) (w : List (List (List El))) : Bool :=
  match Sparse.get? k.loaded e with
  | none => false
  | some t =>
    t.ctx = p.ctx && t.act = p.act && t.arrays = p.arrays && t.wview = p.wview && t.mirWgt = p.mirWgt &&
      t.genAt true = p.genAt true && t.wrow = p.wrow && t.wstep = p.wstep && t.k0 = p.k0 && t.kp = p.kp && t.weights = w

/-- A weight load: the rows of the weight tile enter every named array, 128 cycles of LOAD, unless the arrays hold the
tile already (R78, R90, R99). An uncorrectable stage-buffer error fences the core (R179). -/
def State.weightLoad (s : State) (n e : Nat) (ue : Bool) : State :=
  match (s.core n).active e with
  | none => s
  | some p =>
    if (p.phase = .queued ∨ p.phase = .loading) ∧ s.portReady n e p true (p.needed true) then
      if ue then s.fenceCore n 2 (EvRec.by_ p.ctx p.off p.tag)
      else
        let w := s.wgtEls n e p
        let held := (s.core n).holdsTile e p w
        let q := { p with phase := .streaming, row := 0, weights := w }
        let s := s.modCore n fun k => { k.setProduct e q with loaded := Sparse.put k.loaded e q }
        let s := if held then s else s.addWrap (Reg.mxCnt n e 1) Fld.mxCntCount 128
        let s := s.consumePoison n p (w.flatMap fun a => a.flatMap fun c => c)
        let s := if p.wview.packed then s.setLevel n (xpPort e true) 0 else s
        if (p.genAt true).isSome then s.setReg (Reg.cvPos n e) ((p.k0 + p.kp - 1) % 2 ^ 48) else s
    else s

/-- The physical entries that activation row `m` updates. -/
def State.rowTargets (s : State) (n : Nat) (p : Product) (m : Nat) : List (Nat × Nat × Nat) :=
  let base := (s.accRegion n p.ctx).1
  (indexed 0 p.arrayList).flatMap fun j => (List.range p.cols).map fun c =>
    (base + (p.entry m j.2 c).toNat, j.1, c)

/-- The results of an activation row, written to the accumulator; a WRITE clears marks (R81, R93). -/
def State.writeRow (s : State) (n : Nat) (p : Product) (m : Nat) (act : List El) : State :=
  (s.rowTargets n p m).foldl (fun s t =>
    let w := (((p.weights[t.2.1]?).getD [])[t.2.2]?).getD []
    s.modCore n fun k =>
      { k with
        acc := Sparse.set 0 k.acc t.1
          (BitVec.ofNat 32 (tapRow p.mode (Sparse.get 0 k.acc t.1).toNat (spansOf p.g act w)))
        accPoison := if p.mode = 0 then Sparse.del k.accPoison t.1 else k.accPoison }) s

/-- A residue or duplicate mismatch: the row is not written, MX.FAULT records it, and the core is fenced (R101,
R338). -/
def State.residueFault (s : State) (n e : Nat) (p : Product) (kind array column tap : Nat) : State :=
  let k := Reg.mxFault n
  let s := if bit (s.reg k) 0 then s
    else s.setReg k (1 + kind * 2 + e * 8 + array * 16 + column * 64 + tap * 8192 +
      (recTag p.ctx p.off p.tag).toNat * 2 ^ 32)
  s.fenceCore n 1 (EvRec.by_ p.ctx p.off p.tag)

/-- Whether RES_INJECT meets a live tap of FA0, column 0, in TEST context (R102). -/
def State.injects (s : State) (n e : Nat) (p : Product) : Bool :=
  (s.core n).resInject && e = 0 && p.arrays.getLsbD 0 && (s.ctx n p.ctx).runKind = 2

/-- An activation row (R79). `mis` is what the arrays' checks found in it (R100), `ue` an uncorrectable error in what it reads
(R179). -/
def State.activationRow (s : State) (n e : Nat) (mis : Option Mismatch) (ue : Bool) : State :=
  match (s.core n).active e with
  | none => s
  | some p =>
    let targets := (s.rowTargets n p p.row).map (·.1)
    if p.phase = .streaming ∧ s.portReady n e p false (p.lineNeeded false (p.row0 + p.row)) ∧
        s.accBusy n p.idx targets = false ∧ s.accHeld n p.idx targets = false then
      if ue then s.fenceCore n 2 (EvRec.by_ p.ctx p.off p.tag)
      else if s.injects n e p then
        (s.modCore n fun k => { k with resInject := false }).residueFault n e p 0 0 0 (p.g / 32 - 1)
      else
        match mis with
        | some m => s.residueFault n e p m.kind.toNat m.array.toNat m.column.toNat m.tap.toNat
        | none =>
          let s := s.stirred n
          let act := s.actEls n e p p.row
          let s := (s.writeRow n p p.row act).consumePoison n p act
          let s := s.addWrap (Reg.mxCnt n e 0) Fld.mxCntCount (digits p.aview.fmt)
          let s := if (p.genAt false).isSome then s.setReg (Reg.cvPos n e) ((p.row0 + p.row) % 2 ^ 48) else s
          let q := { p with row := p.row + 1, phase := if p.row + 1 = p.rows then .draining else .streaming }
          let s := s.modCore n fun k => k.setProduct e q
          let s := if p.aview.packed then s.setLevel n (xpPort e false) (s.actLevel n e q) else s
          if q.phase = .draining then s.freshXps n e else s
    else s

/-- One use of an accumulation descriptor; at the last one COMPLETE is set, and POISON when the region holds a
poisoned or NaN entry (R94, R95). -/
def State.acdUse (s : State) (n x a : Nat) : State :=
  let k0 := s.reg (Reg.mxAcd0 n a)
  let s := s.addSat (Reg.mxAcd1 n a) Fld.mxAcd1Done 1
  if bits k0 48 16 ≤ s.fld (Reg.mxAcd1 n a) Fld.mxAcd1Done then
    let base := (s.accRegion n x).1 + bits k0 0 19
    let k := s.core n
    let bad := (List.range (bits k0 20 20)).any fun i =>
      Sparse.get false k.accPoison (base + i) || F32.isNan (Sparse.get 0 k.acc (base + i)).toNat
    let s := s.setFld (Reg.mxAcd1 n a) Fld.mxAcd1Complete 1
    if bad then s.setFld (Reg.mxAcd1 n a) Fld.mxAcd1Poison 1 else s
  else s

/-- A product's last result is written: it leaves the engine and its descriptor gains one use (R94, R139). -/
def State.productComplete (s : State) (n e : Nat) : State :=
  match (s.core n).engine e with
  | p :: rest =>
    if p.phase = .draining then
      let s := s.modCore n fun k => k.setEngine e rest
      match p.acd with
      | some a => s.acdUse n p.ctx a
      | none => s
    else s
  | [] => s

/-! Expanders. -/

/-- The image of a resident code-table generation (R97, R269). -/
def State.tableImage (s : State) (slot gen : Nat) : Option Bytes :=
  match Sparse.get? s.ts slot with
  | none => none
  | some t =>
    if 32 ≤ slot then none
    else match (t.cur.toList ++ t.prev.toList).find? fun b => b.gen = gen with
      | some b => some b.image
      | none => none

/-- A block fault at port `x`: the record, its event, every destination entry marked, the product abandoned, the
stream held in HALT_EXEC (R93, R98, R166). -/
def State.blockFault (s : State) (n x : Nat) (p : Product) (status pos : Nat) : State :=
  let k := Reg.mxXpfault n
  let s := if bit (s.reg k) 0 then s
    else (s.setReg k (1 + x * 2 + status * 256 + (recTag p.ctx p.off p.tag).toNat * 2 ^ 32)).setReg (Reg.mxXppos n)
      (pos % 2 ^ 48)
  let s := s.markAcc n p.ctx p.entries
  let s := s.dropProducts n (x / 2) fun q => q.idx = p.idx
  let s := s.ctxEvent n p.ctx 0x07 status p.off p.tag (openPayload 0x07 status p.act s.now)
  (s.note n p.ctx status p.off p.tag).haltStream n p.ctx 6

/-- Whether a packed transfer ended inside the block at stage address `a` (R184). -/
def Core.cutShort (k : Core) (a bytes : Nat) : Bool := k.packEnds.any fun e => decide (a < e) && decide (e < a + bytes)

/-- The bytes of the block at stage address `a` that a packed transfer brought, when it ended inside the block (R184). -/
def Core.cutAt (k : Core) (a bytes : Nat) : Nat :=
  (k.packEnds.filter fun e => decide (a < e) && decide (e < a + bytes)).foldl (fun m e => min m (e - a)) bytes

/-- The status a block ends with, if any, and the elements that reach the array from it: none when its header fails, and
otherwise its declared count, positions that an expansion falls short of being zero (R98). `image` is the code table of
a PREFIX block. -/
def State.blockResult (s : State) (n a : Nat) (fmt : Nat) (image : Bytes) : Option Nat × List El :=
  let hdr := s.readMem (.stage n) a 32
  let h := parseHdr hdr
  let payload := s.readMem (.stage n) (a + 32) h.packed
  let mark := h.poison || s.marked (.stage n) a (32 + h.packed)
  if h.fmt ≠ fmt ∨ !hdrFits hdr then (some 0x13, [])
  else if (s.core n).cutShort a (32 + h.packed) then
    (some 0x12, (expandBlock h image (payload.take ((s.core n).cutAt a (32 + h.packed) - 32))).els fmt mark)
  else
    let e := expandBlock h image payload
    (e.status.or (if crcFits hdr payload then none else some 0x13), e.els fmt mark)

/-- The fault of a block whose expansion had begun: first the array takes `taken` rows, as far as the block gave them; they
stand (R98). A mismatch found in one of them goes before the fault (R101). -/
def State.faultAfterRows (s : State) (n x : Nat) (p : Product) (status pos taken : Nat) (els : List El) : State :=
  let s := s.modCore n fun k => k.modXp x fun y => { y with elems := y.elems ++ els }
  let s := if x % 2 = 1 then s else s.each (List.range taken) fun _ s => s.activationRow n (x / 2) none false
  if ((s.core n).engine (x / 2)).any fun q => q.idx = p.idx then s.blockFault n x p status pos else s

/-- One block through expander `x` (R96 to R98). `ue` is an uncorrectable error in its stage-buffer read (R179), `taken`
the activation rows that the array takes from a failing block before its fault is found. -/
def State.expanderBlock (s : State) (n x : Nat) (ue : Bool) (taken : Nat) : State :=
  let e := x / 2
  let wgt := decide (x % 2 = 1)
  match (s.core n).active e with
  | none => s
  | some p =>
    let v := if wgt then p.wview else p.aview
    let q := (s.core n).xp x
    let r := s.stageRegion n p.ctx
    let a := r.1 + v.elem + q.pos
    let s := if v.packed then s.landBlock n p.idx a else s
    let h := parseHdr (s.readMem (.stage n) a 32)
    if !v.packed ∨ q.fetching.isSome ∨ p.needed wgt ≤ q.first + q.elems.length ∨
        (wgt ∧ p.phase ≠ .queued ∧ p.phase ≠ .loading) then s
    else if r.2 < v.elem + q.pos + 32 ∨ (hdrFits (s.readMem (.stage n) a 32) ∧ r.2 < v.elem + q.pos + 32 + h.packed) then
      s.blockFault n x p 0x03 q.pos
    else if s.stageReadWaits n p.idx [(a, 32 + h.packed)] then s
    else if ue then s.fenceCore n 2 (EvRec.by_ p.ctx p.off p.tag)
    else
      let prefix_ := h.fmt = v.fmt && hdrFits (s.readMem (.stage n) a 32) && h.mode = 1
      if prefix_ && !q.cache.contains (h.slot, h.gen) then
        s.modCore n fun k => k.modXp x fun y => { y with fetching := some (h.slot, h.gen) }
      else
        match s.blockResult n a v.fmt ((s.tableImage h.slot h.gen).getD []) with
        | (some st, els) => s.faultAfterRows n x p st q.pos taken els
        | (none, els) =>
          let s := s.modCore n fun k =>
            (k.modXp x fun y => { y with pos := y.pos + blockSize h.packed, elems := y.elems ++ els }).setProduct e
              (if wgt then { p with phase := .loading } else p)
          s.setLevel n x (if wgt then ((s.core n).xp x).elems.length * digits v.fmt / 2 else s.actLevel n e p)

/-- A code table arrives after a miss: it joins the cache of four, where the one that came first makes way for a fifth
(DESIGN CHOICE, log 152), or the block ends with TABLE_GEN_MISMATCH when no
Table Store holds the generation (R97, R98). -/
def State.tableFetched (s : State) (n x : Nat) : State :=
  let q := (s.core n).xp x
  match q.fetching with
  | none => s
  | some (slot, gen) =>
    match s.tableImage slot gen with
    | some _ =>
      s.modCore n fun k => k.modXp x fun y =>
        { y with fetching := none, cache := (y.cache ++ [(slot, gen)]).drop (y.cache.length + 1 - 4) }
    | none =>
      match (s.core n).active (x / 2) with
      | some p => s.blockFault n x p 0x10 q.pos
      | none => s.modCore n fun k => k.modXp x fun y => { y with fetching := none }

/-- ACC_SPLIT takes effect when neither engine has a product in flight (R91). -/
def State.applySplit (s : State) (n : Nat) : State :=
  if (s.core n).fwd = [] ∧ (s.core n).bwd = [] then
    s.modCore n fun k => { k with accSplit := s.fld (Reg.mxCtl n) Fld.mxCtlAccSplit }
  else s

/-- A write of RES_INJECT: it arms one mismatch while the core runs in TEST context (R102). -/
def State.armInject (s : State) (n : Nat) : State :=
  if (s.ctx n 0).queue.isSome ∧ (s.ctx n 0).kind = 2 then s.modCore n fun k => { k with resInject := true } else s

/-! Meanings. -/

/-- PRODUCT, in the FWD (`e` = 0) or BWD slot. -/
def execProduct (core : Nat) (ctx : CtxIn) (e : Nat) (s : State) : Host.Outcome State Fault Refusal :=
  whenUnits s (okCore core && okCtx ctx.x && okTwo e)
    (s.onSlot core ctx.x (3 + e) 1 (State.productReady core ctx.x)
      (State.unlessUe core ctx.x ctx.ue (State.issueProduct core ctx.x e)))
/-- WEIGHT_LOAD. -/
def execWeightLoad (core : Nat) (e : EngineIn) (s : State) : Host.Outcome State Fault Refusal :=
  whenUnits s (okCore core && okTwo e.e) (s.weightLoad core e.e e.ue)
/-- ACTIVATION_ROW. -/
def execActivationRow (core e : Nat) (mis : RowIn) (s : State) : Host.Outcome State Fault Refusal :=
  whenUnits s (okCore core && okTwo e) (s.activationRow core e mis.mis mis.ue)
/-- PRODUCT_COMPLETE. -/
def execProductComplete (core e : Nat) (s : State) : Host.Outcome State Fault Refusal :=
  whenUnits s (okCore core && okTwo e) (s.productComplete core e)
/-- EXPANDER_BLOCK. -/
def execExpanderBlock (core port : Nat) (how : BlockIn) (s : State) : Host.Outcome State Fault Refusal :=
  whenUnits s (okCore core && okFour port) (s.expanderBlock core port how.ue how.taken)
/-- TABLE_FETCH_DONE. -/
def execTableFetchDone (core port : Nat) (s : State) : Host.Outcome State Fault Refusal :=
  whenUnits s (okCore core && okFour port) (s.tableFetched core port)
/-- RES_INJECT. -/
def execResInject (core : Nat) (s : State) : Host.Outcome State Fault Refusal :=
  whenUnits s (okCore core) (s.armInject core)
/-- ACC_SPLIT_APPLY. -/
def execAccSplitApply (core : Nat) (s : State) : Host.Outcome State Fault Refusal :=
  whenUnits s (okCore core) (s.applySplit core)

end Sys2Proof.Machine
end

