-- ==== Sys2Proof/Machine/Tick.lean ====
section
/-! DEFINITION. What one tick of the Show Clock does when no command waits (R194), with the registers that count ticks
(R266, R301, R307, R388). -/

namespace Sys2Proof.Machine

/-- Whether a bucket waits for blocks or votes (R301). -/
def Bucket.waitsPeer (b : Bucket) : Bool := b.started && (b.state = .reduce || b.state = .vote || b.state = .gather)

/-- OPT: 0 none, 1 AdamW, 2 momentum SGD. -/
def Bucket.opt (b : Bucket) : Nat := bits (fieldAt b.entry 49 1) 6 2

/-- The key of a tag's record. -/
def tagKey (a tag : Nat) : Nat := a * 65536 + tag

/-- The last update of a tag of the fabric act. -/
def State.lastUpdate (s : State) (tag : Nat) : Option Bucket := Sparse.get? s.updates (tagKey s.fabricAct tag)

/-- Whether the slice of a tag of a step has been read into the snapshot, or the checkpoint of the step or of a later one is
committed (R352). -/
def State.sliceRead (s : State) (tag step : Nat) : Bool :=
  let last := s.fld Reg.netCkpt Fld.netCkptLastStep
  (last ≠ 0xFFFFFFFF && decide (step ≤ last)) ||
    (match s.ckpt with
      | some c => c.step = step && c.slices.any fun l => l.tag = tag && l.snapped
      | none => false)

/-- Whether the commit of a bucket waits for a slice: the tag has been updated up to a checkpoint step before this one, and its
slice of that step has not been read (R352). -/
def State.waitsSlice (s : State) (b : Bucket) : Bool :=
  let n := s.fld Reg.netCkpt Fld.netCkptSteps
  let k := (b.step - 1) / n * n
  n ≠ 0 && b.act = s.fabricAct && b.opt ≠ 0 && decide (0 < b.step) &&
    (match s.lastUpdate b.tag with
      | some u => decide (u.step ≤ k) && !s.sliceRead b.tag k
      | none => false)

/-- Whether a bucket waits for moment or master traffic: an engine is at its shard, whose parameters and moments come from
and go to memory (R301; DEDUCED, log 100), or its commit waits for a slice (R352). -/
def State.waitsMem (s : State) (b : Bucket) : Bool :=
  b.computing ≠ [] || (b.state = .update && b.taken.length = 2 && s.waitsSlice b)

/-- The ticks in which buckets of each act wait (R301, Table 10.8). -/
def State.countWaits (s : State) : State :=
  s.each (List.range 9) fun a s =>
    let s := if s.buckets.any fun p => p.2.act = a && p.2.waitsPeer then
        s.addOpen (Reg.carWait a 0) Fld.carWaitTicks 1 else s
    if s.buckets.any fun p => p.2.act = a && s.waitsMem p.2 then s.addOpen (Reg.carWait a 1) Fld.carWaitTicks 1 else s

/-- Whether optimizer engine `e` updates a half-shard (Table 10.9). -/
def State.optBusy (s : State) (e : Nat) : Bool := s.buckets.any fun p => p.2.computing.contains e

/-- The ticks in which an optimizer engine is busy (Table 10.9). -/
def State.countBusy (s : State) : State :=
  s.each [0, 1] fun m s => if s.optBusy m then s.addWrap (Reg.optBusyTicks m) Fld.optBusyTicksTicks 1 else s

/-- Whether engine `e` still waits for the far moments of the half that it took (R191). -/
def Bucket.reads (b : Bucket) (e : Nat) : Bool := b.computing.contains e && (Sparse.get? b.halves e).isNone

/-- The half-shards that the engines took have been updated by the next tick, but for those whose moments are still being read
(DESIGN CHOICE, log 165). -/
def State.halvesDone (s : State) : State :=
  { s with buckets := s.buckets.map fun p => (p.1, { p.2 with computing := p.2.computing.filter p.2.reads }) }

/-- Whether a sample has no decode yet. -/
def SampleState.undecoded : SampleState → Bool
  | .fetched => true
  | .dispatched _ _ => true
  | .decoded _ => false
  | .voided _ _ => false

/-- The ticks that the head of a sample queue waits on a sample that is not decoded (R266). -/
def State.countHeads (s : State) : State :=
  s.each s.queues fun p s =>
    match p.2.samples.head? with
    | some x =>
      if s.qType p.1 = 2 && x.state.undecoded then s.addOpen (Reg.inHeadWait p.1) Fld.inHeadWaitTicks 1 else s
    | none => s

/-- The ticks in which issue is throttled (R388, Table 14.10). -/
def State.countThrottle (s : State) : State :=
  if s.fld Reg.pwrStatus Fld.pwrStatusThrottleK = 0 then s
  else s.addOpen Reg.pwrThrottled Fld.pwrThrottledTicks 1

/-- The near requests that a stack controller took have been answered by the next tick (DESIGN CHOICE, log 109). -/
def State.answerNear (s : State) : State :=
  s.each (List.range 32) fun t s =>
    if s.fld (Reg.memStk1 t) Fld.memStk1Outstanding = 0 then s else s.setFld (Reg.memStk1 t) Fld.memStk1Outstanding 0

/-- The Show Clock counts 1 ns, modulo 2^64, from the moment the module leaves reset (R194, R366). A tick ends the Midway
cycle in which a table generation is checked for retirement (R272; the cycle is a tick, DESIGN CHOICE, log 164). -/
def State.tick (s : State) : State :=
  if s.alive then
    let s := s.countWaits.countBusy.halvesDone.countHeads.countThrottle.answerNear.retireTables
    { s with now := (s.now + 1) % 2 ^ 64 }
  else s

end Sys2Proof.Machine
end

