-- ==== Sys2Proof/Machine/Transit.lean ====
section
/-! DEFINITION. What a bucket's shards become on the wire, as plain functions: shards and blocks (R281, R285), the
agreed scale and the quantization of DENSE transit (R288, R289, R294), the entries of TOPK (R291), the groups of SIGN
(R292), and the gather payloads (R285, R302). Values are binary32 codes. -/

namespace Sys2Proof.Machine

/-! Shards and blocks. -/

/-- Z: the elements of a full shard (R281). -/
def shardSize (g n e : Nat) : Nat := g * (((e + g - 1) / g + n - 1) / n)

/-- First element of shard `k` and the element after its last (R281). -/
def shardSpan (z e k : Nat) : Nat × Nat := (min (k * z) e, min ((k + 1) * z) e)

/-- The most elements of a block of a format: its expanded payload takes at most 4,096 bytes (R285). -/
def perBlock (f : Nat) : Nat :=
  if fmtG f = 0 then 4096 * 8 / fmtBits f
  else 4096 / (fmtG f * fmtBits f / 8 + 1 + 4 * fmtE f) * fmtG f

/-- Cuts `total` elements from `lo` into blocks of `per`: FIRST and ELEMENTS of each. -/
def cutBlocks (per lo total : Nat) : List (Nat × Nat) :=
  (List.range ((total + per - 1) / per)).map fun i => (lo + i * per, min per (total - i * per))

/-- The blocks of a shard in a format; a block-scaled one holds whole groups. -/
def blockPlan (f lo hi : Nat) : List (Nat × Nat) :=
  cutBlocks (perBlock f) lo (if fmtG f = 0 then hi - lo else roundUp (hi - lo) (fmtG f))

/-- The reduce blocks of a shard: spans of 2,048 in TOPK, blocks of OX8B-G otherwise (R288, R291, R292). -/
def reducePlan (mode f lo hi : Nat) : List (Nat × Nat) :=
  if mode = 1 then cutBlocks 2048 lo (hi - lo) else blockPlan f lo hi

/-- A value that is not finite is NaN from then on (R294). -/
def poisoned (x : Nat) : Nat := if F32.isFin x then x else F32.nan

/-- One addition of the reduce-scatter (R282, R294). -/
def ringAdd (a b : Nat) : Nat := poisoned (f32add a b)

/-- The widened elements of an expanded block (R62, R98); a listed element of a SIGN block is NaN whatever its group's scale
(R292). -/
def Expanded.widened (e : Expanded) (f : Nat) (mark : Bool) : List Nat :=
  if fmtG f = 0 then e.codes.map fun c => if mark then F32.nan else widen32 f c
  else
    let vs := (indexed 0 (chunks e.codes.length (fmtG f) e.codes)).flatMap fun p =>
      (groupEls f ((e.scales[p.1]?).getD 0) p.2 ((e.sides[p.1]?).getD []) mark).map El.widen
    (indexed 0 vs).map fun p => if e.nans.contains p.1 then F32.nan else p.2

/-- The lowest index of a NaN among values from bucket index `first`. -/
def firstNan (first : Nat) (l : List Nat) : Option Nat := (l.findIdx? F32.isNan).map (first + ·)

/-- The poison that a block leaves with: what it came with, unless this device `me` made a lower element NaN (R294). -/
def joinPoison (came : Option (Nat × Nat)) (made : Option Nat) (me : Nat) : Option (Nat × Nat) :=
  match came, made with
  | some c, some i => if i < c.1 then some (i, me) else some c
  | some c, none => some c
  | none, some i => some (i, me)
  | none, none => none

/-- The lower of two poisoned positions. -/
def lowerPoison (a b : Option (Nat × Nat)) : Option (Nat × Nat) :=
  match a, b with
  | some x, some y => if y.1 < x.1 then some y else some x
  | some x, none => some x
  | none, y => y

/-- AUX and POISON_COORD of a reduce block as a position. -/
def BlkHdr.origin (h : BlkHdr) : Option (Nat × Nat) := if h.aux = 0xFFFFFFFF then none else some (h.aux, h.coord)

/-! DENSE. -/

/-- The smallest OXS code whose value is at least AMAX × 2^HEADROOM / 224; 0xFE when none is (R288; the cap is a
DESIGN CHOICE, log 56). -/
def agreedScale (amax headroom : Nat) : Nat :=
  if F32.isFin amax = true ∧ F32.mag amax ≠ 0 then
    min 0xFE (scaleBelow ((F32.value amax).mul ⟨2 ^ headroom, 0⟩) 224 8 0 + 1)
  else 0

/-- 224 times the value of a scale code. -/
def scaleBound (s : Nat) : Dy := (oxsValue s).mul ⟨224, 0⟩

/-- The scale a group is sent with, and whether it was bumped (R289). -/
def sendScale (f sIn : Nat) (ys : List Nat) : Nat × Bool :=
  let a := ys.foldl (fun a y => if F32.isFin y then max a (F32.mag y) else a) 0
  if sIn = 0 then ((derivedScale f ys).1, false)
  else if (scaleBound sIn).lt (F32.value a) then
    match (List.range 63).find? fun k => decide (sIn + 4 * (k + 1) ≤ 0xFE) &&
        (F32.value a).le (scaleBound (sIn + 4 * (k + 1))) with
    | some k => (sIn + 4 * (k + 1), true)
    | none => (0xFE, true)
  else (sIn, false)

/-- A group as a DENSE sender quantizes it: scale, codes, whether it was bumped (R289, R294). -/
def sendGroup (f : Nat) (md : RMode) (ix : Nat → Nat) (sIn : Nat) (ys : List Nat) : Nat × List Nat × Bool :=
  if ys.all F32.isZero then (0, ys.map fun _ => 0, false)
  else
    let sc := sendScale f sIn ys
    (sc.1, (indexed 0 ys).map fun p =>
      if !F32.isFin p.2 || (scaleBound sc.1).lt (F32.value (F32.mag p.2)) then 0x7F
      else (toShort f md (ix p.1) sc.1 p.2).1, sc.2)

/-- The expanded payload of groups: codes, scales, side lists (R285). -/
def groupPayload (f : Nat) (gs : List (Nat × List Nat × List Nat)) : Bytes :=
  packElems f (gs.flatMap fun g => g.2.1) ++ gs.flatMap (fun g => leBytes 1 g.1) ++
    gs.flatMap fun g => g.2.2.flatMap (leBytes 4)

/-- A header with every field of a block of its own at zero. -/
def plainHdr (kind fmt first elements : Nat) : BlkHdr :=
  { mode := 0, poison := false, bumped := false, kind := kind, fmt := fmt, slot := 0, gen := 0, elements := elements,
    packed := 0, scale := 0, bumps := 0, tag := 0, first := first, aux := 0xFFFFFFFF, coord := 0xFFFF, hop := 0,
    last := false, step := 0, crc := 0 }

/-- A header that carries a position of poison. -/
def BlkHdr.withOrigin (h : BlkHdr) (o : Option (Nat × Nat)) : BlkHdr :=
  match o with
  | some p => { h with aux := p.1, coord := p.2 }
  | none => { h with aux := 0xFFFFFFFF, coord := 0xFFFF }

/-- A DENSE block from its values, the scales they came with, the bumps and the poison it came with; the bumps made
here stand beside it. -/
def denseBlock (f : Nat) (md : RMode) (ix : Nat → Nat) (me first : Nat) (ys : List Nat) (scales : List Nat)
    (bumps : Nat) (came : Option (Nat × Nat)) : BlkHdr × Bytes × Nat :=
  let gs := (indexed 0 (chunks ys.length (fmtG f) ys)).map fun p =>
    sendGroup f md (fun i => ix (first + p.1 * fmtG f + i)) ((scales[p.1]?).getD 0) p.2
  let made := (gs.filter fun g => g.2.2).length
  let total := min 255 (bumps + made)
  let nan := (((gs.flatMap fun g => g.2.1).findIdx? fun c => c = 0x7F)).map (first + ·)
  ({ (plainHdr 1 f first ys.length).withOrigin (joinPoison came nan me) with
      bumps := total, bumped := decide (total ≠ 0) },
    groupPayload f (gs.map fun g => (g.1, g.2.1, [])), made)

/-! TOPK. -/

/-- The places of the `k` elements of largest magnitude, NaN first, ties to the lower place, in ascending order (R291,
R114). -/
def topPlaces (k : Nat) (xs : List Nat) : List Nat :=
  let l := ((sortDesc ((indexed 0 xs).map fun p => (if F32.isNan p.2 then 2 ^ 31 else F32.mag p.2, p.1))).take k).map
    (·.2)
  (List.range xs.length).filter l.contains

/-- A device's own entries of a span: place and OX16 code (R291). -/
def topEntries (md : RMode) (ix : Nat → Nat) (ratio : Nat) (xs : List Nat) : List (Nat × Nat) :=
  (topPlaces ((xs.length + 2 ^ ratio - 1) / 2 ^ ratio) xs).map fun i =>
    (i, (toOx16 md (ix i) ((xs[i]?).getD 0)).1)

/-- The entries of a received TOPK or RAW OX16 block. -/
def blockEntries (mode n : Nat) (payload : Bytes) : List (Nat × Nat) :=
  if mode = 2 then
    (List.range (payload.length / 4)).map fun i => (fieldAt payload (4 * i) 2, fieldAt payload (4 * i + 2) 2)
  else (List.range n).map fun i => (i, fieldAt payload (2 * i) 2)

/-- The union of two lists of entries in ascending place; where both have one, their sum rounds to OX16 (R291). -/
def joinEntries (md : RMode) (ix : Nat → Nat) (n : Nat) (a b : List (Nat × Nat)) : List (Nat × Nat) :=
  (List.range n).filterMap fun i =>
    match a.find? fun e => e.1 = i, b.find? fun e => e.1 = i with
    | some x, some y => some (i, (toOx16 md (ix i) (ringAdd (widen32 0x40 x.2) (widen32 0x40 y.2))).1)
    | some x, none => some x
    | none, some y => some y
    | none, none => none

/-- A span's block: a TOPK list, or RAW OX16 when there are more than 1,024 entries (R291). -/
def spanBlock (me first n : Nat) (es : List (Nat × Nat)) (came : Option (Nat × Nat)) : BlkHdr × Bytes :=
  let nan := (es.find? fun e => ox16Value e.2 = none).map fun e => first + e.1
  let h := (plainHdr 1 0x40 first n).withOrigin (joinPoison came nan me)
  if 1024 < es.length then
    (h, (List.range n).flatMap fun i => leBytes 2 (match es.find? fun e => e.1 = i with | some e => e.2 | none => 0))
  else ({ h with mode := 2 }, es.flatMap fun e => leBytes 2 e.1 ++ leBytes 2 e.2)

/-! SIGN. -/

/-- The code nearest the mean magnitude of the finite values, ties to the lower, 0x00 for a zero mean (R292). -/
def meanScale (xs : List Nat) : Nat :=
  let fin := xs.filter fun x => F32.isFin x
  let sum := fin.foldl (fun a x => a.add (F32.value (F32.mag x))) Dy.zero
  if sum.m = 0 then 0
  else
    let times (c : Nat) : Dy := (oxsValue c).mul ⟨fin.length, 0⟩
    let c := (List.range 254).foldl (fun c i => if (times (i + 1)).le sum then i + 1 else c) 0
    if c = 0 then 1
    else if c = 0xFE then c
    else if ((times c).add (times (c + 1))).lt (sum.mul ⟨2, 0⟩) then c + 1 else c

/-- A device's own contribution as a SIGN block (R292). -/
def signBlock (f me first : Nat) (xs : List Nat) : BlkHdr × Bytes :=
  let nans := ((indexed 0 xs).filter fun p => F32.isNan p.2).map (·.1)
  let excess := (nans.drop 16).map (· / fmtG f)
  let scales := (indexed 0 (chunks xs.length (fmtG f) xs)).map fun p => if excess.contains p.1 then 0xFF else meanScale p.2
  let signs := (chunks xs.length 8 xs).map fun c => ofBits ((c.map fun x => F32.sign x))
  let listed := nans.take 16
  ({ (plainHdr 1 f first xs.length).withOrigin (nans.head?.map fun i => (first + i, me)) with mode := 3 },
    signs.flatMap (leBytes 1) ++ scales.flatMap (leBytes 1) ++ leBytes 1 listed.length ++ listed.flatMap (leBytes 2))
where
  /-- The number that bits spell, lowest first. -/
  ofBits : List Bool → Nat
    | [] => 0
    | b :: l => b2n b + 2 * ofBits l

/-! Gather. -/

/-- Element codes as codewords, highest bit first, padded to a byte; none when a symbol has no code (Table 9.9). -/
def prefixEncode (table : List (Nat × Nat × Nat)) (codes : List Nat) : Option Bytes :=
  let r := codes.foldl (fun (a : Option (Nat × Nat)) c =>
    match a, table.find? fun e => e.2.2 = c with
    | some p, some e => some (p.1 * 2 ^ e.1 + e.2.1, p.2 + e.1)
    | _, _ => none) (some (0, 0))
  r.map fun p =>
    let n := (p.2 + 7) / 8
    (leBytes n (p.1 * 2 ^ (8 * n - p.2))).reverse

/-- The groups or plain codes of a shard's values in a format (R64). -/
def convertRun (f : Nat) (md : RMode) (ix : Nat → Nat) (xs : List Nat) : List (Nat × List Nat × List Nat) :=
  if fmtG f = 0 then
    [(0, (indexed 0 xs).map fun p => (toShort f md (ix p.1) 0xA0 p.2).1, [])]
  else
    (indexed 0 (chunks xs.length (fmtG f) xs)).map fun p =>
      let g := convertGroup f md none (fun i => ix (p.1 * fmtG f + i)) (padNats (fmtG f) p.2)
      (g.scale, g.codes, g.side)

/-- The payload of a gather block in RAW form: codes, then the scales and side lists of a block-scaled format. -/
def rawPayload (f : Nat) (gs : List (Nat × List Nat × List Nat)) : Bytes :=
  if fmtG f = 0 then packElems f (gs.flatMap fun g => g.2.1) else groupPayload f gs

/-- The payload in PREFIX form under a code table, when every symbol has a code and it fits a block. -/
def prefixPayload (f : Nat) (image : Bytes) (gs : List (Nat × List Nat × List Nat)) : Option Bytes :=
  match prefixEncode (codeTable image) (gs.flatMap fun g => g.2.1) with
  | some bs =>
    let p := bs ++ (if fmtG f = 0 then [] else gs.flatMap (fun g => leBytes 1 g.1) ++
      gs.flatMap fun g => g.2.2.flatMap (leBytes 4))
    if p.length ≤ 4096 then some p else none
  | none => none

end Sys2Proof.Machine
end

