-- ==== Sys2Proof/Machine/Carousel.lean ====
section
/-! DEFINITION. The Carousel: handover and start of a bucket (R277 to R280), the reduce-scatter (R281 to R294), votes
(R295), the end of a bucket (R302), phase marks and the peer deadline (R304, R305, R331). The optimizer and the gather
stand in Optimizer.lean. -/

namespace Sys2Proof.Machine

/-! The table entry (Table 10.1). -/

/-- MASTER. -/
def Bucket.master (b : Bucket) : Nat := fieldAt b.entry 0 6
/-- MOM0 or MOM1. -/
def Bucket.mom (b : Bucket) (h : Nat) : Nat := fieldAt b.entry (8 + 8 * h) 6
/-- MSP0 or MSP1. -/
def Bucket.msp (b : Bucket) (h : Nat) : Nat := bits (fieldAt b.entry (14 + 8 * h) 2) 0 3
/-- WORK. -/
def Bucket.work (b : Bucket) : Nat := fieldAt b.entry 24 6
/-- WFMT. -/
def Bucket.wfmt (b : Bucket) : Nat := fieldAt b.entry 30 1
/-- WMODE. -/
def Bucket.wmode (b : Bucket) : Nat := bits (fieldAt b.entry 31 1) 0 1
/-- WSLOT. -/
def Bucket.wslot (b : Bucket) : Nat := bits (fieldAt b.entry 31 1) 1 6
/-- WSTRIDE. -/
def Bucket.wstride (b : Bucket) : Nat := fieldAt b.entry 32 4
/-- TENSOR_ID. -/
def Bucket.tensor (b : Bucket) : Nat := fieldAt b.entry 36 4
/-- RESID. -/
def Bucket.resid (b : Bucket) : Nat := fieldAt b.entry 40 6
/-- The transit group: 32, 64 or 128. -/
def Bucket.g (b : Bucket) : Nat := 16 * 2 ^ bits (fieldAt b.entry 48 1) 0 2
/-- MODE: 0 DENSE, 1 TOPK, 2 SIGN. -/
def Bucket.mode (b : Bucket) : Nat := bits (fieldAt b.entry 48 1) 2 2
/-- RATIO. -/
def Bucket.ratio (b : Bucket) : Nat := bits (fieldAt b.entry 48 1) 4 4
/-- DONE_SEM. -/
def Bucket.doneSem (b : Bucket) : Nat := bits (fieldAt b.entry 49 1) 0 6
/-- The Midway of a bucket (R277). -/
def Bucket.mw (b : Bucket) : Nat := b.axis / 2
/-- The format of DENSE and SIGN blocks: OX8B-G with E = 0. -/
def Bucket.transitFmt (b : Bucket) : Nat := 0x20 + 4 * bits (fieldAt b.entry 48 1) 0 2
/-- The near address of the table entry (R279). -/
def State.bucketEntry (s : State) (a tag : Nat) : Nat := s.fld (Reg.carTable a) Fld.carTableAddr + 64 * tag

/-! The ring. -/

/-- Length of a bucket's ring (R281). -/
def State.ringLen (s : State) (b : Bucket) : Nat := s.extent b.axis
/-- This device's coordinate on the ring. -/
def State.ringAt (s : State) (b : Bucket) : Nat := coordOf s.selfLogical b.axis
/-- The logical coordinate of the device at ring coordinate `j`. -/
def State.ringCoord (s : State) (b : Bucket) (j : Nat) : Nat := withCoord s.selfLogical b.axis j
/-- The logical coordinate of the ring neighbour this device receives from. -/
def State.ringBefore (s : State) (b : Bucket) : Nat :=
  s.ringCoord b ((s.ringAt b + s.ringLen b - 1) % s.ringLen b)
/-- The logical coordinate of the ring neighbour this device sends to. -/
def State.ringAfter (s : State) (b : Bucket) : Nat := s.ringCoord b ((s.ringAt b + 1) % s.ringLen b)
/-- The bounds of shard `k` (R281). -/
def State.shard (s : State) (b : Bucket) (k : Nat) : Nat × Nat := shardSpan (shardSize b.g (s.ringLen b) b.elems) b.elems k
/-- The bounds of the shard this device owns. -/
def State.ownShard (s : State) (b : Bucket) : Nat × Nat := s.shard b (s.ringAt b)
/-- The shard this device sends in reduce transmission `t` (R282). -/
def State.sentShard (s : State) (b : Bucket) (t : Nat) : Nat := (s.ringAt b + s.ringLen b - t) % s.ringLen b
/-- The shard this device receives in reduce transmission `t`. -/
def State.reduceShard (s : State) (b : Bucket) (t : Nat) : Nat := s.sentShard b (t + 1)
/-- The reduce blocks of shard `k`. -/
def State.planOf (s : State) (b : Bucket) (k : Nat) : List (Nat × Nat) :=
  reducePlan b.mode b.transitFmt (s.shard b k).1 (s.shard b k).2

/-! Buckets in flight. -/

/-- The key of slot `slot` of the Carousel of Midway `m`. -/
def slotKey (m slot : Nat) : Nat := 128 * m + slot

/-- Sets a bucket. -/
def State.setBucket (s : State) (k : Nat) (b : Bucket) : State :=
  { s with buckets := Sparse.put s.buckets k b }

/-- Changes a bucket in flight. -/
def State.modBucket (s : State) (k : Nat) (f : Bucket → Bucket) : State :=
  match Sparse.get? s.buckets k with
  | some b => s.setBucket k (f b)
  | none => s

/-- Applies a change to a bucket in flight. -/
def State.onBucket (s : State) (k : Nat) (f : Bucket → State → State) : State :=
  match Sparse.get? s.buckets k with
  | some b => f b s
  | none => s

/-- A GRADIENT event (Table 10.4). -/
def State.gradient (s : State) (b : Bucket) (status idx coord tries : Nat) : State :=
  s.actEvent 0x0A status b.act
    (leBytes 2 b.tag ++ leBytes 1 status ++ leBytes 1 b.mode ++ leBytes 4 b.step ++ leBytes 4 idx ++ leBytes 2 coord ++
      leBytes 1 (min 255 b.bumps) ++ leBytes 1 tries)

/-- The position that a condition's event reports. -/
def Bucket.place (b : Bucket) (status : Nat) : Nat × Nat := if status = 0x20 then b.poison.getD (0, 0) else (0, 0)

/-- The first poisoned bucket of an act is recorded until its record is cleared (Table 10.8). -/
def State.recordPoison (s : State) (b : Bucket) : State :=
  let k := Reg.carPoison b.act
  if 0x20 ∈ b.conds ∧ s.flag k Fld.carPoisonValid = false then
    let p := b.place 0x20
    let s := ((s.setFld k Fld.carPoisonValid 1).setFld k Fld.carPoisonTag b.tag).setFld k Fld.carPoisonStep b.step
    (s.setFld (Reg.carPoisonPos b.act) Fld.carPoisonPosIndex p.1).setFld (Reg.carPoisonPos b.act)
      Fld.carPoisonPosCoord p.2
  else s

/-- A bucket ends on this device: its STATUS record, DONE_SEM and its events (R280, R302). A condition whose event has
been written at the time gets no second one. -/
def State.endBucket (s : State) (b : Bucket) (events : List Nat) : State :=
  let s := s.writeMem .near (s.bucketEntry b.act b.tag + 56)
    (leBytes 1 (statusOf b.conds) ++ leBytes 1 (min 255 b.bumps) ++ leBytes 4 b.step ++ leBytes 2 0)
  let s := if s.sem b.act b.doneSem + 1 < 2 ^ 32 then s.addSem b.act b.doneSem 1 else s
  let s := s.each events fun c s => s.gradient b c (b.place c).1 (b.place c).2 0
  s.recordPoison b

/-- A new condition of a bucket. -/
def Bucket.cond (b : Bucket) (c : Nat) : Bucket := if b.conds.contains c then b else { b with conds := b.conds ++ [c] }

/-- The peer deadline of a bucket in flight: PEER_NS after its last progress (R305). -/
def State.peerDue (s : State) (b : Bucket) : Option Nat :=
  let ns := s.reg (Reg.carPeerNs b.act)
  if ns = 0 then none else b.progressAt.map (· + ns)

/-- Past its peer deadline a bucket reports it and goes on waiting; the deadline re-arms from the timeout (R305, R331; R295
for a vote that outlasts the update). -/
def State.peerDeadline (s : State) (k : Nat) : State :=
  s.onBucket k fun b s =>
    match s.peerDue b with
    | none => s
    | some d =>
      if s.now ≤ d then s
      else
        let kept := if b.asked ≠ [] ∨ (b.state = .vote ∧ b.taken.length = 2) then 1 else 3
        ((s.gradient b 0x40 0 0 0).yielded b.act 4 kept 0x40 d).modBucket k fun b =>
          { b.cond 0x40 with progressAt := some s.now }

/-- Progress re-arms the peer deadline; progress stamped past the deadline comes after its timeout (R200, R305). -/
def State.progress (s : State) (k : Nat) : State :=
  (s.peerDeadline k).modBucket k fun b => { b with progressAt := some s.now }

/-! Handover. -/

/-- The fields of an entry that the checks of R280 and the reserved codes of Table 10.1 refuse. -/
def Bucket.fieldsBad (b : Bucket) : Bool :=
  let e := b.entry
  fieldAt e 6 2 ≠ 0 || bits (fieldAt e 14 2) 3 13 ≠ 0 || bits (fieldAt e 22 2) 3 13 ≠ 0 || bit (fieldAt e 31 1) 7 ||
    fieldAt e 46 2 ≠ 0 || bits (fieldAt e 50 1) 4 4 ≠ 0 || fieldAt e 51 5 ≠ 0 || bits (fieldAt e 48 1) 0 2 = 0 ||
    b.mode = 3 || b.opt = 3 || b.wstride % 32 ≠ 0 || (b.mode = 1 && (decide (b.ratio < 4) || decide (10 < b.ratio))) ||
    !(b.msp 0 = 0 || b.msp 0 = 4 || b.msp 0 = 5) || !(b.msp 1 = 0 || b.msp 1 = 6 || b.msp 1 = 7) ||
    !(fmtLegal b.wfmt && decide (1 ≤ fmtType b.wfmt) && decide (fmtType b.wfmt ≤ 4)) ||
    (b.wmode = 1 && (decide (32 ≤ b.wslot) || fmtType b.wfmt = 4))

/-- The half `h` of the own shard: its bounds (R296). -/
def State.halfSpan (s : State) (b : Bucket) (h : Nat) : Nat × Nat :=
  let o := s.ownShard b
  let m := min (o.1 + 128 * ((o.2 - o.1 + 255) / 256)) o.2
  if h = 0 then (o.1, m) else (m, o.2)

/-- The offsets of the four planes of a moment area of a half of `n` elements, and its size (R296). -/
def momPlanes (n : Nat) : List Nat × Nat :=
  let g := (n + 127) / 128
  let a := roundUp (128 * g) 256
  let c := roundUp g 256
  ([0, a, a + c, 2 * a + c], 2 * a + 2 * c)

/-- The bytes that the blocks of a shard take from WORK + s × WSTRIDE, at most (R285, R302). -/
def State.workBytes (s : State) (b : Bucket) (k : Nat) : Nat :=
  let sh := s.shard b k
  (blockPlan b.wfmt sh.1 sh.2).foldl (fun a p =>
    a + (if b.wmode = 1 then blockSize 4096 else blockSize (expandedSize b.wfmt p.2))) 0

/-- The near ranges of an entry, as (address, length) (R280). -/
def State.bucketRanges (s : State) (b : Bucket) : List (Nat × Nat) :=
  let o := s.ownShard b
  let moms := [0, 1].filterMap fun h =>
    let p := s.halfSpan b h
    if b.opt ≠ 0 ∧ b.msp h = 0 then some (b.mom h, if p.1 = p.2 then 0 else (momPlanes (p.2 - p.1)).2) else none
  ((b.master, 2 * (o.2 - o.1)) :: moms ++
    (List.range (s.ringLen b)).map (fun k => (b.work + k * b.wstride, s.workBytes b k)) ++
    (if b.mode = 0 then [] else [(b.resid, 2 * b.elems)])).filter fun p => p.2 ≠ 0

/-- Whether every address of an entry lies in a window of the act; act 0 is not checked against windows (R180, R280). -/
def State.addressesOk (s : State) (b : Bucket) : Bool :=
  (s.bucketRanges b).all (fun p => s.nearAllowed b.act p.1 p.2 true) &&
    [0, 1].all fun h =>
      let p := s.halfSpan b h
      b.opt = 0 || b.msp h = 0 || p.1 = p.2 ||
        s.farAllowed (b.msp h - 4) b.act (b.mom h) (momPlanes (p.2 - p.1)).2

/-- The conditions that the checks of R280 find. -/
def State.handoverConds (s : State) (b : Bucket) : List Nat :=
  (if b.fieldsBad then [0x02] else if s.addressesOk b then [] else [0x03]) ++
    (if [0, 1].any fun h => decide (4 ≤ b.msp h) && !s.farBonded (b.msp h - 4) then [0x01] else [])

/-- The bytes of the largest transit shard (R280): for SIGN one contribution's blocks (DESIGN CHOICE, log 57). -/
def State.transitBytes (s : State) (b : Bucket) : Nat :=
  (s.planOf b 0).foldl (fun a p =>
    a + 32 + (if b.mode = 0 then expandedSize b.transitFmt p.2 else if b.mode = 1 then 2 * p.2
      else p.2 / 8 + p.2 / b.g + 33)) 0

/-- What a bucket takes of the act's scratch area (R280). -/
def State.bucketScratch (s : State) (b : Bucket) : Nat := 4 * b.elems + 2 * s.transitBytes b

/-- The scratch bytes in use by an act. -/
def State.scratchUsed (s : State) (a : Nat) : Nat :=
  s.buckets.foldl (fun n p => if p.2.act = a then n + p.2.scratch else n) 0

/-- The lowest free slot of a Carousel (R277). -/
def State.freeSlot (s : State) (m : Nat) : Option Nat :=
  (List.range 128).find? fun i => (Sparse.get? s.buckets (slotKey m i)).isNone

/-- The bucket in flight with an act's tag. -/
def State.bucketOf (s : State) (a tag : Nat) : Option (Nat × Bucket) :=
  s.buckets.find? fun p => p.2.act = a && p.2.tag = tag

/-- The bucket that a waiting SYNC BUCKET would hand over: its table entry and its hyperparameter record are read now
(R279). -/
def State.newBucket (s : State) (n x : Nat) (w : BucketWait) : Bucket :=
  let c := s.ctx n x
  let e := s.readMem .near (s.bucketEntry c.act w.tag) 64
  { act := c.act, tag := w.tag, step := w.step, state := .held, started := false, core := n, acd := w.acd,
    lcore := match c.queue with | some q => s.fld (Reg.qmQCfg q) Fld.qmQCfgCore | none => 0,
    seed := c.seed.toNat, axis := s.fld (Reg.carBktCtl c.act) Fld.carBktCtlAxis, entry := e,
    hp := s.readMem .near (s.fld (Reg.carHp c.act) Fld.carHpAddr + 64 * bits (fieldAt e 50 1) 0 4) 64,
    elems := s.fld (Reg.mxAcd0 n w.acd) Fld.mxAcd0Entries, scratch := 0, own := [], scanned := false, agreed := 0, hop := 0, blocks := [],
    sum := [], sumAt := none, origin := none, bumps := 0, votes := [], taken := [], computing := [], halves := [], farBad := [],
    stored := [], arrived := [], aux := [], poison := none, conds := [], attempts := [], asked := [], sent := [],
    accepted := [], progressAt := none, regather := false }

/-- Ends a SYNC BUCKET slot's wait. -/
def State.handoverDone (s : State) (n x : Nat) : State := s.modCtx n x fun c => { c with bucketWait := none }

/-- The Carousel holds a descriptor (R278). -/
def State.holdAcd (s : State) (n k : Nat) : State :=
  s.modCore n fun c => { c with acdHeld := k :: c.acdHeld.filter (· ≠ k) }

/-- The Carousel lets a descriptor go. -/
def State.freeAcd (s : State) (n k : Nat) : State :=
  s.modCore n fun c => { c with acdHeld := c.acdHeld.filter (· ≠ k) }

/-- A repeated handover of a tag in one step is ignored (R157). A bucket that has not started follows its logical core
to the core that hands it over again (R340; DEDUCED, log 58). -/
def State.repeatHandover (s : State) (n x : Nat) (w : BucketWait) : State :=
  let c := s.ctx n x
  match s.bucketOf c.act w.tag with
  | some (k, b) =>
    if b.started = false ∧ b.core ≠ n then
      (((s.freeAcd b.core b.acd).holdAcd n w.acd).modBucket k fun b => { b with core := n, acd := w.acd }).handoverDone n x
    else s.handoverDone n x
  | none => s.handoverDone n x

/-- BUCKET_HANDOVER: ignored as a repeat, waiting, failed by the checks of R280, or accepted (R277 to R280). -/
def State.handover (s : State) (n x : Nat) : State :=
  match (s.ctx n x).bucketWait with
  | none => s
  | some w =>
    let b := s.newBucket n x w
    if Sparse.get? s.handed (tagKey b.act b.tag) = some b.step then s.repeatHandover n x w
    else if (s.bucketOf b.act b.tag).isSome then s
    else
      let taken (s : State) : State :=
        State.handoverDone { s with handed := Sparse.put s.handed (tagKey b.act b.tag) b.step } n x
      match s.handoverConds b with
      | [] =>
        let need := s.bucketScratch b
        match s.freeSlot b.mw with
        | none => s
        | some i =>
          if s.fld (Reg.carScratchSize b.act) Fld.carScratchSizeMib * 2 ^ 20 < s.scratchUsed b.act + need then s
          else (taken ((s.setBucket (slotKey b.mw i) { b with scratch := need }).holdAcd n w.acd))
      | conds => taken (s.endBucket { b with conds := conds } conds)

/-- BUCKET_START: the handover is accepted and COMPLETE is set (R278). -/
def State.startBucket (s : State) (k : Nat) : State :=
  s.onBucket k fun b s =>
    if b.state = .held ∧ b.started = false ∧ s.flag (Reg.mxAcd1 b.core b.acd) Fld.mxAcd1Complete = true then
      (s.modBucket k fun b => { b with started := true }).progress k
    else s

/-- The device's own contribution: the region, a marked entry as NaN, with the residual in TOPK and SIGN (R278, R291,
R294). -/
def State.contribution (s : State) (b : Bucket) : List Word32 :=
  let base := (s.accRegion b.core 0).1 + s.fld (Reg.mxAcd0 b.core b.acd) Fld.mxAcd0Base
  let c := s.core b.core
  let res := if b.mode = 0 then [] else s.readMem .near b.resid (2 * b.elems)
  (List.range b.elems).map fun i =>
    let v := if Sparse.get false c.accPoison (base + i) then F32.nan else (Sparse.get 0 c.acc (base + i)).toNat
    let v := if b.mode = 0 then v else f32add v (widen32 0x40 (fieldAt res (2 * i) 2))
    BitVec.ofNat 32 (poisoned v)

/-- Marks a phase of an act for a step once. A step's mark is remembered while a bucket of the step is in flight, and until the
next step's (R304). -/
def State.markOnce (s : State) (marks : List (Nat × Nat)) (put : List (Nat × Nat) → State → State)
    (b : Bucket) (phase : Nat) : State :=
  if marks.contains (b.act, b.step) then s
  else
    let live := marks.filter fun m => m.1 ≠ b.act || s.buckets.any fun p => p.2.act = b.act && p.2.step = m.2
    put (live ++ [(b.act, b.step)]) (s.phaseMark b.act phase s.now)

/-- The agreed scale (R288). -/
def State.agreed (s : State) (b : Bucket) : Nat :=
  if b.mode ≠ 0 then 0
  else
    match s.history.find? fun h => h.1 = tagKey b.act b.tag with
    | some (_, step, amax) =>
      if (step + 1) % 2 ^ 32 = b.step then agreedScale amax (s.fld (Reg.carBktCtl b.act) Fld.carBktCtlHeadroom) else 0
    | none => 0

/-! Sending. -/

/-- The identity of a block: KIND, HOP and FIRST (R324). -/
def blockId (kind hop first : Nat) : Nat := kind * 2 ^ 36 + hop * 2 ^ 32 + first

/-- How a bucket's transit values round: SR under the keys of R289. -/
def Bucket.md (b : Bucket) : RMode := .sr b.seed b.tensor b.step

/-- The index of R289's keys: the sender's ring coordinate and the element's bucket index. -/
def keyIndex (j i : Nat) : Nat := j * 2 ^ 40 + i

/-- Own contributions from element `first`, zero past the bucket's end. -/
def Bucket.ownRun (b : Bucket) (first n : Nat) : List Nat :=
  (List.range n).map fun i => ((b.own[first + i]?).getD 0).toNat

/-- The header of a stored block. -/
def blockHdr (bs : Bytes) : BlkHdr := parseHdr (bs.take 32)

/-- The accepted reduce block with a HOP and FIRST. -/
def Bucket.block? (b : Bucket) (hop first : Nat) : Option Bytes :=
  b.blocks.find? fun bs => (blockHdr bs).hop = hop && (blockHdr bs).first = first

/-- The values of an accepted reduce block. -/
def blockValues (bs : Bytes) : List Nat :=
  let h := blockHdr bs
  (expandBlock h [] (bs.drop 32)).widened h.fmt h.poison

/-- The group scales of an accepted reduce block. -/
def blockScales (bs : Bytes) : List Nat := (expandBlock (blockHdr bs) [] (bs.drop 32)).scales

/-- The reduce blocks a device sends of a range in transmission `t`, with the bumps it made (R289, R291, R292). -/
def State.reduceBlocks (s : State) (b : Bucket) (t : Nat) (p : Nat × Nat) : List (BlkHdr × Bytes × Nat) :=
  let me := s.selfLogical
  let ix := keyIndex (s.ringAt b)
  let own := b.ownRun p.1 p.2
  let came := if t = 1 then none else b.block? (t - 1) p.1
  match b.mode with
  | 0 =>
    match came with
    | none =>
      let n := p.2 / b.g
      [denseBlock b.transitFmt b.md ix me p.1 own (List.replicate n b.agreed) 0 none]
    | some bs =>
      let h := blockHdr bs
      [denseBlock b.transitFmt b.md ix me p.1 (List.zipWith ringAdd (blockValues bs) own) (blockScales bs) h.bumps
        h.origin]
  | 1 =>
    let ownEs := topEntries b.md (fun i => ix (p.1 + i)) b.ratio own
    match came with
    | none => [((spanBlock me p.1 p.2 ownEs none).1, (spanBlock me p.1 p.2 ownEs none).2, 0)]
    | some bs =>
      let h := blockHdr bs
      let es := joinEntries b.md (fun i => ix (p.1 + i)) p.2 (blockEntries h.mode p.2 (bs.drop 32)) ownEs
      let r := spanBlock me p.1 p.2 es h.origin
      [(r.1, r.2, 0)]
  | _ =>
    let mine := signBlock b.transitFmt me p.1 own
    ({ mine.1 with hop := 1 }, mine.2, 0) ::
      (List.range (t - 1)).filterMap fun a => (b.block? (a + 1) p.1).map fun bs =>
        ({ blockHdr bs with hop := a + 2 }, bs.drop 32, 0)

/-- Sends a block to the next device of the ring; it stays held until it is acknowledged (R282, R324). -/
def State.sendBlock (s : State) (k : Nat) (b : Bucket) (h : BlkHdr) (payload : Bytes) : State :=
  let bs := blockBytes h payload
  let s := s.sendHeld (s.newFrame (s.physOf (s.ringAfter b)) 1 (if h.kind = 2 then 1 else 0) (bs.take 32) (bs.drop 32))
  let s := s.modBucket k fun b => { b with sent := b.sent ++ [blockId h.kind h.hop h.first] }
  s.addWrap (Reg.carBlocksTx b.mw) Fld.carBlocksTxCount 1

/-- What a device's own contribution to an element was sent as (R293). -/
def State.sentAs (s : State) (b : Bucket) (p : Nat × Nat) : List Nat :=
  let own := b.ownRun p.1 p.2
  if b.mode = 1 then
    let es := topEntries b.md (fun i => keyIndex (s.ringAt b) (p.1 + i)) b.ratio own
    (List.range p.2).map fun i => match es.find? fun e => e.1 = i with | some e => widen32 0x40 e.2 | none => 0
  else
    let r := signBlock b.transitFmt s.selfLogical p.1 own
    (expandBlock r.1 [] r.2).widened b.transitFmt false

/-- Replaces the residual of what this device sends of its own, before its first block leaves (R293). -/
def State.writeResidual (s : State) (b : Bucket) : State :=
  if b.mode = 0 then s
  else
    let md : RMode := .sr b.seed (b.tensor ^^^ 0x20000000) b.step
    s.each ((List.range (s.ringLen b)).filter fun k => k ≠ s.ringAt b) fun k s =>
      s.each (s.planOf b k) fun p s =>
        let hi := (s.shard b k).2
        let n := min p.2 (hi - p.1)
        let vs := List.zipWith f32sub (b.ownRun p.1 n) (s.sentAs b p)
        s.writeMem .near (b.resid + 2 * p.1)
          ((indexed 0 vs).flatMap fun v => leBytes 2 (toOx16 md (keyIndex (s.ringAt b) (p.1 + v.1)) v.2).1)

/-- Whether every block of reduce transmission `t` has been accepted (R282); in SIGN each of its `t` contributions. -/
def State.allReceived (s : State) (b : Bucket) (t : Nat) : Bool :=
  (s.planOf b (s.reduceShard b t)).all fun p =>
    if b.mode = 2 then (List.range t).all fun a => (b.block? (a + 1) p.1).isSome else (b.block? t p.1).isSome

/-- CAROUSEL_BLOCK_SEND: the next reduce transmission, once the one before has been received and summed (R282). In
SIGN each block's HOP counts the transmissions of its own contribution (DESIGN CHOICE, log 59). -/
def State.sendReduce (s : State) (k : Nat) : State :=
  s.onBucket k fun b s =>
    let t := b.hop + 1
    if b.state = .reduce ∧ t < s.ringLen b ∧ (t = 1 ∨ s.allReceived b (t - 1) = true) then
      let s := if t = 1 then s.writeResidual b else s
      let s := s.modBucket k fun b => { b with hop := t }
      let plan := s.planOf b (s.sentShard b t)
      let last := (plan.getLast?.map (·.1)).getD 0
      s.each plan fun p s => s.each (s.reduceBlocks b t p) fun r s =>
        let h := { r.1 with scale := b.agreed, tag := b.tag, step := b.step
                            last := decide (p.1 = last) && (b.mode ≠ 2 || r.1.hop = t)
                            hop := if b.mode = 2 then r.1.hop else t }
        (s.sendBlock k b h r.2.1).addSat (Reg.carRetry b.mw) Fld.carRetryBumps r.2.2
    else s

/-! Votes and the completed sum. -/

/-- The payload of a VOTE: the spec names what it says, not where (DESIGN CHOICE, log 60). -/
def voteBytes (b : Bucket) (v : Vote) : Bytes :=
  leBytes 2 b.tag ++ leBytes 2 v.owner ++ leBytes 4 b.step ++ leBytes 1 (b2n v.poison) ++ leBytes 3 0 ++
    leBytes 4 v.index ++ leBytes 2 v.coord ++ leBytes 2 0

/-- Sends a vote to the next device of the ring (R295). -/
def State.sendVote (s : State) (b : Bucket) (v : Vote) : State :=
  s.sendFrame (s.newFrame (s.physOf (s.ringAfter b)) 6 3 [] (voteBytes b v))

/-- Whether an act's buckets vote: POLICY = HOLD. -/
def State.holds_ (s : State) (a : Nat) : Bool := !s.flag (Reg.carBktCtl a) Fld.carBktCtlPolicy

/-- The first position of the votes held (R295). -/
def Bucket.voted (b : Bucket) : Option (Nat × Nat) :=
  b.votes.foldl (fun a v => if v.poison then lowerPoison a (some (v.index, v.coord)) else a) none

/-- Whether a bucket waits for votes: HOLD, and fewer than all are here. -/
def State.votesMissing (s : State) (b : Bucket) : Bool := s.holds_ b.act && decide (b.votes.length < s.ringLen b)

/-- The state of a bucket whose sum is complete: VOTE while votes are missing, else UPDATE. -/
def State.afterSum (s : State) (k : Nat) : State :=
  s.modBucket k fun b => { b with state := if s.votesMissing b then .vote else .update }

/-- The contributions of an own-shard block in the order of R282, ending before this device's. -/
def State.ringParts (s : State) (b : Bucket) (first : Nat) : List Bytes :=
  if b.mode = 2 then (List.range (s.ringLen b - 1)).filterMap fun i => b.block? (s.ringLen b - 1 - i) first
  else (b.block? (s.ringLen b - 1) first).toList

/-- The completed sum of a block's elements of the own shard: this device adds last, in SIGN what its own contribution decodes to
(R282, R292). -/
def State.blockSum (s : State) (b : Bucket) (p : Nat × Nat) : List Nat :=
  let own := if b.mode = 2 then s.sentAs b p else b.ownRun p.1 p.2
  match (s.ringParts b p.1).map blockValues with
  | [] => own
  | v :: vs => List.zipWith ringAdd (vs.foldl (fun a w => List.zipWith ringAdd a w) v) own

/-- The completed sum of the own shard with its poison; the vote goes out under HOLD (R282, R294, R295). -/
def State.completeSum (s : State) (k : Nat) : State :=
  s.onBucket k fun b s =>
    let o := s.ownShard b
    let plan := s.planOf b (s.ringAt b)
    let sum := (plan.flatMap fun p => s.blockSum b p).take (o.2 - o.1)
    let hdrs := plan.flatMap fun p => (s.ringParts b p.1).map blockHdr
    let came := hdrs.foldl (fun a h => lowerPoison a h.origin) none
    let org := joinPoison came (firstNan o.1 sum) s.selfLogical
    let v : Vote := { owner := s.ringAt b, poison := org.isSome, index := (org.getD (0, 0)).1,
                      coord := (org.getD (0, 0)).2 }
    let bumps := min 255 (hdrs.foldl (fun a h => a + h.bumps) 0)
    let s := s.modBucket k fun b =>
      { b with sum := sum.map (BitVec.ofNat 32), sumAt := some s.now, origin := org, bumps := bumps,
               conds := if bumps = 0 then b.conds else b.conds ++ [0x21],
               votes := if s.holds_ b.act then b.votes ++ [v] else b.votes }
    let s := if s.holds_ b.act ∧ 1 < s.ringLen b then s.sendVote b v else s
    s.afterSum k

/-- Completes the sum once the last transmission has been received. -/
def State.trySum (s : State) (k : Nat) : State :=
  s.onBucket k fun b s =>
    if b.state = .reduce ∧ (s.ringLen b = 1 ∨ s.allReceived b (s.ringLen b - 1) = true) ∧
        s.ringLen b ≤ b.hop + 1 then s.completeSum k
    else s

/-- SCRATCH_READ_DONE: the copy has ended and been scanned, the descriptor's POISON bit with it, the descriptor is free, and the
exchange begins (R278, R304). -/
def State.scratchDone (s : State) (k : Nat) : State :=
  s.onBucket k fun b s =>
    if b.state = .held ∧ b.started = true then
      let own := s.contribution b
      let bad := s.flag (Reg.mxAcd1 b.core b.acd) Fld.mxAcd1Poison || own.any fun w => !F32.isFin w.toNat
      let ag := s.agreed b
      let s := (s.modBucket k fun b => { b with own := own, scanned := bad, agreed := ag, state := .reduce }).freeAcd b.core b.acd
      let s := s.markOnce s.reduceMark (fun l s => { s with reduceMark := l }) b 3
      s.trySum k
    else s

/-! Receiving. -/

/-- The bucket that a frame of a tag and step from a module names: in flight, and the module is its ring neighbour
(R322). A frame names no act; of two acts' buckets the one in the lower slot is meant (DESIGN CHOICE, log 61). -/
def State.bucketFrom (s : State) (src tag step : Nat) : Option (Nat × Bucket) :=
  s.buckets.find? fun p =>
    p.2.tag = tag && p.2.step = step && decide (1 < s.ringLen p.2) && s.logicalOf src = some (s.ringBefore p.2)

/-- Whether LAST is set on a plan's last block and on no other (Table 10.2). -/
def lastFits (plan : List (Nat × Nat)) (h : BlkHdr) : Bool := h.last = (plan.getLast?.map (·.1) == some h.first)

/-- Whether a reduce block fits what its sender may send in that HOP: KIND, MODE, FMT, FIRST, ELEMENTS and LAST (R286). In SIGN
a transmission t brings its contributions under HOP 1 to t, the last block under HOP t (log 59). -/
def State.reduceFits (s : State) (b : Bucket) (h : BlkHdr) : Bool :=
  let ts := if b.mode = 2 then (List.range (s.ringLen b - 1)).filterMap fun t => if h.hop ≤ t + 1 then some (t + 1) else none
    else [h.hop]
  h.kind = 1 &&
    ts.any (fun t =>
      let plan := s.planOf b (s.reduceShard b t)
      plan.contains (h.first, h.elements) && (if h.hop = t then lastFits plan h else h.last = false)) &&
    (match b.mode with
      | 0 => h.mode = 0 && h.fmt = b.transitFmt
      | 1 => (h.mode = 0 || h.mode = 2) && h.fmt = 0x40
      | _ => h.mode = 3 && h.fmt = b.transitFmt)

/-- A block that fails its checks: counted, reported and requested again; the fourth failure marks the link faulty, and
the request goes out over the route that is left (R286, R331). -/
def State.blockFailed (s : State) (p k : Nat) (b : Bucket) (h : BlkHdr) (status src : Nat) : State :=
  let id := blockId h.kind h.hop h.first
  let tries := Sparse.get 0 b.attempts id + 1
  let s := (s.addSat (Reg.carRetry b.mw) Fld.carRetryRetries 1).addSat (Reg.lnkRetry p) Fld.lnkRetryBlockFails 1
  let s := s.gradient b status h.first (s.ringBefore b) tries
  let s := s.modBucket k fun b =>
    { b with attempts := Sparse.put b.attempts id (tries % 4), asked := id :: b.asked.filter (· ≠ id) }
  let s := if tries = 4 then (s.addSat (Reg.carRetry b.mw) Fld.carRetryLinkFaults 1).leavePort p 7 10 else s
  s.sendFrame (s.newFrame src 5 3 [] (blockAck b.tag h.hop h.first))

/-- The status a received block fails with, if any (R286). `image` is its code table. -/
def blockStatus (f : Frame) (h : BlkHdr) (fits : Bool) (image : Bytes) : Option Nat :=
  if crcFits f.ext f.payload = false ∨ hdrFits f.ext = false ∨ fits = false ∨ f.payload.length ≠ h.packed then some 0x13
  else (expandBlock h image f.payload).status

/-- A block accepted: counted, acknowledged and progress (R286, R305, R324). -/
def State.blockAccepted (s : State) (k : Nat) (b : Bucket) (h : BlkHdr) (src : Nat) : State :=
  let id := blockId h.kind h.hop h.first
  let s := s.modBucket k fun b => { b with accepted := id :: b.accepted, asked := b.asked.filter (· ≠ id) }
  let s := s.addWrap (Reg.carBlocksRx b.mw) Fld.carBlocksRxCount 1
  (s.progress k).sendAck src (blockAck b.tag h.hop h.first)

/-- A reduce block that arrives (R286, R322, R324). -/
def State.reduceBlock (s : State) (p : Nat) (f : Frame) : State :=
  let h := parseHdr f.ext
  let src := f.src.toNat
  match s.bucketFrom src h.tag h.step with
  | none => s.addrDrop p
  | some (k, b) =>
    if h.hop = 0 ∨ s.ringLen b ≤ h.hop then s.addrDrop p
    else if b.accepted.contains (blockId h.kind h.hop h.first) then s.sendAck src (blockAck b.tag h.hop h.first)
    else
      match blockStatus f h (s.reduceFits b h) [] with
      | some st => s.blockFailed p k b h st src
      | none =>
        let s := s.blockAccepted k b h src
        (s.modBucket k fun b => { b with blocks := b.blocks ++ [f.ext ++ f.payload] }).trySum k

/-- REREQ: a block this device sent to that neighbour is sent again while it is held (R286, R323). -/
def State.rereqFrame (s : State) (p : Nat) (f : Frame) : State :=
  let e := fieldAt f.payload 0 8
  let named (h : HeldFrame) : Bool := h.frame.dst = f.src && h.frame.typ.toNat = 1 &&
    fieldAt h.frame.ext 10 2 = bits e 1 16 && bits (fieldAt h.frame.ext 22 1) 0 4 = bits e 17 4 &&
    fieldAt h.frame.ext 12 4 = bits e 21 32
  let mine := s.buckets.any fun q => q.2.tag = bits e 1 16 && s.logicalOf f.src.toNat = some (s.ringAfter q.2) &&
    [1, 2].any fun kind => q.2.sent.contains (blockId kind (bits e 17 4) (bits e 21 32))
  s.onlyIf p (s.heldFrames.any named || mine) fun s =>
    match s.heldFrames.find? named with
    | some h =>
      State.sendFrame { s with heldFrames := s.heldFrames.map fun g => if g = h then { g with sent := s.now } else g }
        h.frame
    | none => s

/-- VOTE: recorded, and forwarded until every device of the ring has it (R295, R323). -/
def State.voteFrame (s : State) (p : Nat) (f : Frame) : State :=
  let w := f.payload
  let v : Vote := { owner := fieldAt w 2 2, poison := bit (fieldAt w 8 1) 0, index := fieldAt w 12 4,
                    coord := fieldAt w 16 2 }
  match s.bucketFrom f.src.toNat (fieldAt w 0 2) (fieldAt w 4 4) with
  | none => s.addrDrop p
  | some (k, b) =>
    if s.holds_ b.act = false ∨ s.ringLen b ≤ v.owner ∨ v.owner = s.ringAt b ∨ b.votes.any (fun u => u.owner = v.owner) then
      s.addrDrop p
    else
      let s := (s.modBucket k fun b => { b with votes := b.votes ++ [v] }).progress k
      let s := if (s.ringAt b + 1) % s.ringLen b = v.owner then s else s.sendVote b v
      if b.state = .vote then s.afterSum k else s

/-! Meanings. -/

/-- BUCKET_HANDOVER. -/
def execBucketHandover (core ctx : Nat) (s : State) : Host.Outcome State Fault Refusal :=
  whenUnits s (okCore core && okCtx ctx) (s.handover core ctx)
/-- BUCKET_START. -/
def execBucketStart (m slot : Nat) (s : State) : Host.Outcome State Fault Refusal :=
  whenUnits s (okTwo m && okSlot slot) (s.startBucket (slotKey m slot))
/-- SCRATCH_READ_DONE. -/
def execScratchReadDone (m slot : Nat) (s : State) : Host.Outcome State Fault Refusal :=
  whenUnits s (okTwo m && okSlot slot) (s.scratchDone (slotKey m slot))
/-- CAROUSEL_BLOCK_SEND. -/
def execCarouselBlockSend (m slot : Nat) (s : State) : Host.Outcome State Fault Refusal :=
  whenUnits s (okTwo m && okSlot slot) ((s.sendReduce (slotKey m slot)).trySum (slotKey m slot))
/-- BLOCK: a frame with a gather block is GATHER_BLOCK_RECEIVE's. -/
def execBlock (p : Nat) (f : Frame) (s : State) : Host.Outcome State Fault Refusal :=
  whenUnits s (okPort p) (if (parseHdr f.ext).kind = 2 then s else s.arrive p f 1 fun s => s.reduceBlock p f)
/-- REREQ. -/
def execRereq (p : Nat) (f : Frame) (s : State) : Host.Outcome State Fault Refusal :=
  whenUnits s (okPort p) (s.arrive p f 5 fun s => s.rereqFrame p f)
/-- VOTE. -/
def execVote (p : Nat) (f : Frame) (s : State) : Host.Outcome State Fault Refusal :=
  whenUnits s (okPort p) (s.arrive p f 6 fun s => s.voteFrame p f)
/-- BUCKET_PEER_DEADLINE. -/
def execBucketPeerDeadline (m slot : Nat) (s : State) : Host.Outcome State Fault Refusal :=
  whenUnits s (okTwo m && okSlot slot) (s.peerDeadline (slotKey m slot))

end Sys2Proof.Machine
end

