-- ==== Sys2Proof/Machine/Media.lean ====
section
/-! DEFINITION. What a decoded sample is: the tokenizer (R257), colour and normalization (R258), and the media tensors
and their positions (R260). -/

namespace Sys2Proof.Machine

/-! Sample entries (Table 9.1). -/

/-- BRANCH. -/
def Sample.branch (x : Sample) : Nat := fieldAt x.raw 12 1 / 16
/-- The flag bits of byte 13. -/
def Sample.flag (x : Sample) (i : Nat) : Bool := bit (fieldAt x.raw 13 1) i
/-- LIVE. -/
def Sample.live (x : Sample) : Bool := x.flag 1
/-- POSITIONS. -/
def Sample.reserved (x : Sample) : Nat := fieldAt x.raw 16 4
/-- PARAM_A. -/
def Sample.paramA (x : Sample) : Nat := fieldAt x.raw 20 4
/-- PARAM_B. -/
def Sample.paramB (x : Sample) : Nat := fieldAt x.raw 24 4
/-- SRC. -/
def Sample.src (x : Sample) : Nat := fieldAt x.raw 0 8
/-- LENGTH. -/
def Sample.length (x : Sample) : Nat := fieldAt x.raw 8 4
/-- The space of SRC. -/
def Sample.space (x : Sample) : Space := if x.flag 0 then .near else .host

/-! The queue's settings. -/

/-- P. -/
def State.inPatch (s : State) (q : Nat) : Nat := 8 * 2 ^ s.fld (Reg.inOut q) Fld.inOutPatch
/-- PT. -/
def State.inPatchT (s : State) (q : Nat) : Nat := 2 ^ s.fld (Reg.inOut q) Fld.inOutPatchT
/-- FS. -/
def State.inFrame (s : State) (q : Nat) : Nat := s.fld (Reg.inOut q) Fld.inOutFrameSamples
/-- OUT_CH. -/
def State.inOutCh (s : State) (q : Nat) : Nat := s.fld (Reg.inAudio q) Fld.inAudioOutCh + 1
/-- FMT. -/
def State.inFmt (s : State) (q : Nat) : Nat := s.fld (Reg.inOut q) Fld.inOutFmt

/-- The media elements of one position (R260). -/
def State.posElems (s : State) (q k : Nat) : Nat :=
  if isVideo k then s.inPatch q * s.inPatch q * 16 * s.inPatchT q
  else if isImage k then s.inPatch q * s.inPatch q * 16
  else if isAudio k then s.inFrame q * s.inOutCh q
  else 0

/-- The media bytes that a sample reserves (R260). -/
def State.reservedBytes (s : State) (q k positions : Nat) : Nat :=
  up256 (positions * s.posElems q k * (fmtBits (s.inFmt q) / 8))

/-! The tokenizer (R257). -/

/-- The class of a byte: 0 L, 1 D, 2 S, 3 P. -/
def byteClass (b : Nat) : Nat :=
  if (0x41 ≤ b ∧ b ≤ 0x5A) ∨ (0x61 ≤ b ∧ b ≤ 0x7A) ∨ 0x80 ≤ b then 0
  else if 0x30 ≤ b ∧ b ≤ 0x39 then 1
  else if (0x09 ≤ b ∧ b ≤ 0x0D) ∨ b = 0x20 then 2
  else 3

/-- Maximal runs of one class. -/
def classRuns : List Nat → List (List Nat)
  | [] => []
  | b :: bs =>
    match classRuns bs with
    | (c :: cs) :: rs => if byteClass b = byteClass c then (b :: c :: cs) :: rs else [b] :: (c :: cs) :: rs
    | rs => [b] :: rs

/-- A single 0x20 before another class moves to the start of the following chunk (R257; a run of exactly one, DEDUCED,
log 53). -/
def moveSpaces : List (List Nat) → List (List Nat)
  | [0x20] :: r :: rs => (0x20 :: r) :: moveSpaces rs
  | r :: rs => r :: moveSpaces rs
  | [] => []

/-- The chunks of a text, cut every 256 bytes. -/
def textChunks (bs : Bytes) : List (List Nat) :=
  (moveSpaces (classRuns (bs.map (·.toNat)))).flatMap fun c => chunks c.length 256 c

/-- A vocabulary image's parts (Table 9.9): BOS, EOS, the byte map and the merges in rank order. -/
structure Vocab where
  bos : Nat
  eos : Nat
  map : List Nat
  merges : List (Nat × Nat × Nat)
  deriving DecidableEq, Repr

/-- Reads a vocabulary image. -/
def parseVocab (bs : Bytes) : Vocab :=
  { bos := fieldAt bs 12 4, eos := fieldAt bs 16 4, map := (List.range 256).map fun i => fieldAt bs (64 + 4 * i) 4,
    merges := (List.range (fieldAt bs 8 4)).map fun i =>
      let a := 1088 + 12 * i
      (fieldAt bs a 4, fieldAt bs (a + 4) 4, fieldAt bs (a + 8) 4) }

/-- The rank of a pair, with its result: the lowest record that names it. -/
def Vocab.rank (v : Vocab) (l r : Nat) : Option (Nat × Nat) :=
  (indexed 0 v.merges).findSome? fun m => if m.2.1 = l ∧ m.2.2.1 = r then some (m.1, m.2.2.2) else none

/-- The place of the best merge of a token list: lowest rank, then lowest place. -/
def Vocab.best (v : Vocab) (t : List Nat) : Option (Nat × Nat) :=
  let l := (indexed 0 (t.zip (t.drop 1))).filterMap fun p => (v.rank p.2.1 p.2.2).map fun r => (r.1, p.1, r.2)
  (l.foldl (fun a m => match a with
    | none => some m
    | some b => if m.1 < b.1 then some m else some b) none).map fun m => (m.2.1, m.2.2)

/-- Merges until none applies. The first argument bounds the merges. -/
def Vocab.merge (v : Vocab) : Nat → List Nat → List Nat
  | 0, t => t
  | n + 1, t =>
    match v.best t with
    | none => t
    | some (i, r) => Vocab.merge v n (t.take i ++ [r] ++ t.drop (i + 2))

/-- The tokens of a text (R257). -/
def tokenize (v : Vocab) (bos eos : Bool) (text : Bytes) : List Nat :=
  (if bos then [v.bos] else []) ++
    ((textChunks text).flatMap fun c => v.merge c.length (c.map fun b => (v.map[b]?).getD 0)) ++
    if eos then [v.eos] else []

/-! Colour (R258). -/

/-- The constants kr and kb of a matrix, as binary32. -/
def colourK (m : Nat) : Nat × Nat :=
  match m with
  | 0 => (0x3E991687, 0x3DE978D5)
  | 1 => (0x3E59B3D0, 0x3D93DD98)
  | _ => (0x3E86809D, 0x3D72E48F)

/-- An integer as binary32. -/
def f32int (i : Int) : Nat := f32of ⟨i, 0⟩

/-- The binary32 one. -/
def f32one : Nat := 0x3F800000

/-- A binary32 held to [0, 1]. -/
def clamp01 (x : Nat) : Nat :=
  match F32.cmp x 0, F32.cmp f32one x with
  | some (true, _), _ => 0
  | _, some (true, _) => f32one
  | _, _ => x

/-- The transfer of one component: none, PQ over 10,000, or HLG. -/
def transferOf (t x : Nat) : Nat :=
  match t with
  | 1 => f32div (Config.pqEotf (BitVec.ofNat 32 (clamp01 x))).toNat 0x461C4000
  | 2 => (Config.hlgInverse (BitVec.ofNat 32 (clamp01 x))).toNat
  | _ => x

/-- The colour settings in force: matrix, full range, transfer. -/
structure Colour where
  matrix : Nat
  full : Bool
  transfer : Nat
  deriving DecidableEq, Repr

/-- `to_linear` of R258 on components of `n` bits. -/
def toLinear (k : Colour) (ycc : Bool) (n : Nat) (c : List Int) : List Nat :=
  let c0 := (c)[0]?.getD 0
  let c1 := (c)[1]?.getD 0
  let c2 := (c)[2]?.getD 0
  let top : Int := ((2 ^ n - 1 : Nat) : Int)
  let half : Int := ((2 ^ (n - 1) : Nat) : Int)
  let u : Int := ((2 ^ (n - 8) : Nat) : Int)
  let ratio (a b : Int) : Nat := f32div (f32int a) (f32int b)
  let rgb : List Nat :=
    if ycc then
      let y := if k.full then ratio c0 top else ratio (c0 - 16 * u) (219 * u)
      let cb := if k.full then ratio (c1 - half) top else ratio (c1 - 128 * u) (224 * u)
      let cr := if k.full then ratio (c2 - half) top else ratio (c2 - 128 * u) (224 * u)
      let kr := (colourK k.matrix).1
      let kb := (colourK k.matrix).2
      let kg := f32sub (f32sub f32one kr) kb
      let two := f32int 2
      let r := f32add y (f32mul (f32sub two (f32mul two kr)) cr)
      let b := f32add y (f32mul (f32sub two (f32mul two kb)) cb)
      [r, f32div (f32sub (f32sub y (f32mul kr r)) (f32mul kb b)) kg, b]
    else [ratio c0 top, ratio c1 top, ratio c2 top]
  rgb.map (transferOf k.transfer)

/-- The colour settings of a queue for a sample. Video and AV1 signal their colour and JFIF means BT.601 full range with no
transfer; a PNG signals nothing that is used, its colour chunks being ignored (R258, Table 9.2). -/
def State.colour (s : State) (q kind : Nat) (data : Bytes) : Colour :=
  let sig := (Config.mediaSignal kind data).toNat
  if s.flag (Reg.inColour q) Fld.inColourFromStream ∧ kind ≠ 2 ∧ bit sig 0 then
    if kind = 1 then { matrix := 0, full := true, transfer := s.fld (Reg.inColour q) Fld.inColourTransfer }
    else { matrix := bits sig 1 2, full := bit sig 3, transfer := bits sig 4 2 }
  else
    { matrix := s.fld (Reg.inColour q) Fld.inColourMatrix, full := s.flag (Reg.inColour q) Fld.inColourFull,
      transfer := s.fld (Reg.inColour q) Fld.inColourTransfer }

/-- `(v − mean) × scale` of a channel. -/
def State.normalize (s : State) (q ch v : Nat) : Nat :=
  f32mul (f32sub v (s.fld (Reg.inMean q ch) Fld.inMeanValue)) (s.fld (Reg.inScale q ch) Fld.inScaleValue)

/-- The channels of a decoded pixel after the chain of R258. -/
def State.pixel (s : State) (q kind : Nat) (data : Bytes) (f y x : Nat) : List Nat :=
  let n := (Config.mediaBits kind data).toNat
  let lay := (Config.mediaLayout kind data).toNat
  let ycc := bit lay 0
  let comp (c : Nat) : Int := ((Config.mediaPixel kind data f y x c).toNat : Int)
  let mid : Int := ((2 ^ (n - 1) : Nat) : Int)
  let cs : List Int :=
    if bit lay 1 then (if ycc then [comp 0, mid, mid] else [comp 0, comp 0, comp 0]) else [comp 0, comp 1, comp 2]
  let alpha := if bit lay 2 then f32div (f32int (comp 3)) (f32int ((2 ^ n - 1 : Nat) : Int)) else f32one
  let v := toLinear (s.colour q kind data) ycc n cs ++
    if s.flag (Reg.inOut q) Fld.inOutCh4 then [alpha] else []
  (indexed 0 v).map fun p => s.normalize q p.1 p.2

/-! Media tensors (R260). -/

/-- What a decode gives: the reasons that make the sample void, the offset of an error, positions, tokens, the media
values in row-major order with padding as none, the dimensions, and the pixels or samples decoded. -/
structure Decoded where
  reasons : List Nat
  errAt : Nat
  positions : Nat
  tokens : List Word32
  media : List (Option Word32)
  width : Nat
  height : Nat
  depth : Nat
  work : Nat
  deriving DecidableEq, Repr

/-- A decode that found the sample void. -/
def Decoded.void (reasons : List Nat) (errAt : Nat) : Decoded :=
  { reasons := reasons, errAt := errAt, positions := 0, tokens := [], media := [], width := 0, height := 0, depth := 0,
    work := 0 }

/-- Division rounding up. -/
def ceilDiv (a b : Nat) : Nat := (a + b - 1) / b

/-- Whether a picture is within the limits of R254. -/
def pictureOk (kind w h : Nat) : Bool :=
  if isVideo kind then decide (w ≤ 8192) && decide (h ≤ 8192) && decide (w * h ≤ 8912896)
  else decide (w ≤ 16384) && decide (h ≤ 16384)

/-- Whether the decoder of a kind takes a feature (Table 9.2). What the table says is ignored, not applied or output otherwise
does not make a sample void (DEDUCED, log 177). -/
def featureOk (kind : Nat) (f : Config.Feature) : Bool :=
  match kind with
  | 1 => [.baseline, .progressive, .restart].contains f
  | 2 => [.interlace, .palette, .transparency, .laterFrames, .colourChunks].contains f
  | 3 => f = .filmGrain
  | 4 => [.upperLayer, .fieldPicture].contains f
  | 7 => f = .ogg
  | 8 => [.extensible, .bext].contains f
  | _ => false

/-- The bit depths that the decoder of a picture kind takes (Table 9.2). -/
def depthOk (kind n : Nat) : Bool :=
  match kind with
  | 2 => [1, 2, 4, 8, 16].contains n
  | 3 => n = 8 || n = 10
  | 4 => n = 8 || n = 10
  | _ => n = 8

/-- The sample rate of an audio stream; Opus is output at 48 kHz (Table 9.2). -/
def audioHz (kind : Nat) (data : Bytes) : Nat := if kind = 7 then 48000 else (Config.audioRate kind data).toNat

/-- Whether the decoder of an audio kind takes a stream's rate, channels and sample size (Table 9.2). -/
def audioOk (kind : Nat) (data : Bytes) : Bool :=
  let n := (Config.audioBits kind data).toNat
  let ch := (Config.audioChannels kind data).toNat
  match kind with
  | 6 => decide (audioHz kind data ≤ 96000) && decide (1 ≤ ch) && decide (ch ≤ 8) && decide (4 ≤ n) && decide (n ≤ 24)
  | 8 => decide (audioHz kind data ≤ 96000) && decide (1 ≤ ch) && decide (ch ≤ 8) && [0, 8, 16, 24, 32].contains n
  | _ => true

/-- Whether a sample uses a feature outside Table 9.2, or its picture passes the limits of R254. -/
def unsupported (kind : Nat) (data : Bytes) : Bool :=
  !(Config.mediaUses kind data).all (featureOk kind) ||
    if isAudio kind then !audioOk kind data
    else
      !pictureOk kind (Config.mediaWidth kind data).toNat (Config.mediaHeight kind data).toNat ||
        !depthOk kind (Config.mediaBits kind data).toNat ||
        (bit (Config.mediaLayout kind data).toNat 2 && decide (kind ≠ 2)) ||
        (isVideo kind && Config.mediaResized kind data)

/-- The reasons for which a decoder finds a sample void: CORRUPT, UNSUPPORTED (R254). -/
def streamReasons (kind : Nat) (data : Bytes) : List Nat :=
  (if Config.mediaCorrupt kind data then [1] else []) ++ if unsupported kind data then [2] else []

/-- A decoded image or video sample. -/
def State.picture (s : State) (q kind a b : Nat) (data : Bytes) : Decoded :=
  let w := (Config.mediaWidth kind data).toNat
  let h := (Config.mediaHeight kind data).toNat
  let total := (Config.mediaFrames kind data).toNat - a
  let frames := if isVideo kind then (if b = 0 then total else min b total) else 1
  let first := if isVideo kind then a else 0
  if streamReasons kind data ≠ [] then Decoded.void (streamReasons kind data) (Config.mediaErrorAt kind data).toNat
  else
    let p := s.inPatch q
    let pt := if isVideo kind then s.inPatchT q else 1
    let hp := ceilDiv h p * p
    let wp := ceilDiv w p * p
    let dp := ceilDiv frames pt * pt
    let media := (List.range dp).flatMap fun f => (List.range hp).flatMap fun y => (List.range wp).flatMap fun x =>
      let v := if f < frames ∧ y < h ∧ x < w then s.pixel q kind data (first + f) y x else []
      (List.range 16).map fun c => (v[c]?).map (BitVec.ofNat 32)
    { reasons := [], errAt := 0, positions := ceilDiv frames pt * ceilDiv h p * ceilDiv w p, tokens := [],
      media := media, width := w, height := h, depth := frames, work := frames * w * h }

/-- One decoded audio sample as binary32 (R254). -/
def audioValue (kind : Nat) (data : Bytes) (i c : Nat) : Nat :=
  let n := (Config.audioBits kind data).toNat
  let v := (Config.audioSample kind data i c).toNat
  if n = 0 then v
  else
    let x : Int := if n = 8 then (v : Int) - 128 else toSigned n v
    f32div (f32int x) (f32int ((2 ^ (n - 1) : Nat) : Int))

/-- A decoded audio sample. -/
def State.audio (s : State) (q kind map : Nat) (data : Bytes) : Decoded :=
  let ch := s.inOutCh q
  let fs := s.inFrame q
  let len := (Config.audioLength kind data).toNat
  let reasons := streamReasons kind data ++
    if audioHz kind data ≠ s.fld (Reg.inAudio q) Fld.inAudioRate ∨
        (List.range ch).any (fun i => decide ((Config.audioChannels kind data).toNat ≤ bits map (4 * i) 4)) then [5]
    else []
  if reasons ≠ [] then
    Decoded.void reasons (if streamReasons kind data = [] then 0 else (Config.mediaErrorAt kind data).toNat)
  else
    let n := ceilDiv len fs
    let media := (List.range (n * fs)).flatMap fun i => (List.range ch).map fun c =>
      if i < len then some (BitVec.ofNat 32 (s.normalize q 0 (audioValue kind data i (bits map (4 * c) 4)))) else none
    { reasons := [], errAt := 0, positions := n, tokens := [], media := media, width := fs * ch, height := 1, depth := n,
      work := len * (Config.audioChannels kind data).toNat }

/-- A decoded text. -/
def textSample (v : Vocab) (bos eos : Bool) (data : Bytes) : Decoded :=
  let t := tokenize v bos eos data
  { reasons := [], errAt := 0, positions := t.length, tokens := t.map (BitVec.ofNat 32), media := [], width := 0,
    height := 0, depth := 0, work := data.length }

/-! Conversion (R259). -/

/-- The keyed generator's mode for sample `count` of a queue. -/
def State.inMode (s : State) (q count : Nat) : RMode :=
  if s.flag (Reg.inOut q) Fld.inOutRnd then
    .sr (s.queue q).seed.toNat (s.fld (Reg.inTensor q) Fld.inTensorTensorId) (count / 2 ^ 16)
  else .rne

/-- The bytes of a media tensor and the statistics of its conversion; padding is exact zero. -/
def State.convertMedia (s : State) (q count : Nat) (m : List (Option Word32)) : Bytes × Stat :=
  let f := s.inFmt q
  let r := (indexed 0 m).map fun p =>
    match p.2 with
    | some x => plainCode f (s.inMode q count) (count % 2 ^ 16 * 2 ^ 32 + p.1) x.toNat
    | none => (0, 0)
  (r.flatMap fun c => leBytes (fmtBits f / 8) c.1,
    statOf (m.filterMap fun x => x.map (·.toNat)) (r.filter fun c => c.2 % 2 = 1).length)

end Sys2Proof.Machine
end

