-- ==== Sys2Proof/Machine/Input.lean ====
section
/-! DEFINITION. The input pipeline: fetching and checking samples (R253), the decode engines (R253 to R256), void slots
and deadlines (R265 to R268), placement and batches (R261 to R264), and the Table Store (R269 to R272). -/

namespace Sys2Proof.Machine

/-! The Table Store: what an entry names, and the images it takes. -/

/-- The generation that a TEXT entry of a queue takes at its fetch, if it is resident (R270). -/
def State.textGen (s : State) (q : Nat) (x : Sample) : Option Nat :=
  let t := s.tsSeen q x.slot
  if x.flag 4 then t.cur.map (·.gen)
  else ((t.cur.toList ++ t.prev.toList).find? fun b => b.gen = fieldAt x.raw 15 1).map (·.gen)

/-- Whether a code-table image passes Table 9.9. -/
def codeTableOk (bs : Bytes) : Bool :=
  let f := fieldAt bs 4 1
  let len := (List.range 256).map fun k => fieldAt bs (8 + k) 1
  decide (264 ≤ bs.length) && fieldAt bs 0 4 = 0x43540001 && (fmtType f = 1 || fmtType f = 2 || fmtType f = 3) &&
    f % 16 = 0 && fieldAt bs 5 3 = 0 && len.all (fun l => decide (l ≤ 16)) &&
    (fmtType f ≠ 1 || (len.drop 16).all fun l => l = 0) && len.any (fun l => l ≠ 0) &&
    decide ((len.filter fun l => l ≠ 0).foldl (fun a l => a + 2 ^ (16 - l)) 0 ≤ 2 ^ 16)

/-- Whether a vocabulary image passes Table 9.9. -/
def vocabOk (bs : Bytes) : Bool :=
  let e := fieldAt bs 4 4
  let m := fieldAt bs 8 4
  decide (1088 ≤ bs.length) && fieldAt bs 0 4 = 0x56420001 && decide (257 ≤ e) && decide (e ≤ 262144) &&
    decide (m ≤ e - 256) && decide (1088 + 12 * m ≤ bs.length) && fieldAt bs 12 4 < e && fieldAt bs 16 4 < e &&
    ((bs.drop 20).take 44).all (fun b => b = 0) &&
    (List.range 256).all (fun i => decide (fieldAt bs (64 + 4 * i) 4 < e)) &&
    (List.range (3 * m)).all fun i => decide (fieldAt bs (1088 + 4 * i) 4 < e)

/-! Fetch. -/

/-- The deadline of a LIVE sample, if IN.STALE is set (R268). -/
def State.staleDeadline (s : State) (q : Nat) (x : Sample) : Option Int :=
  let lim := s.reg (Reg.inStale q)
  if x.live && lim ≠ 0 then
    some ((fieldAt x.raw 32 8 : Int) + toSigned 64 (s.reg Reg.sckPtpOffset) + (lim : Int))
  else none

/-- The decode deadline of a dispatched sample, if IN.BUDGET is set (R267). -/
def State.budgetDeadline (s : State) (q : Nat) (x : Sample) : Option Nat :=
  match x.state with
  | .dispatched _ t => if s.reg (Reg.inBudget q) = 0 then none else some (t + s.reg (Reg.inBudget q))
  | _ => none

/-- Whether an entry breaks a check of R253 other than that of its window. LENGTH 0, a text over 64 MiB and a PARAM_B
over 65,535 are among the reserved values (DEDUCED, log 54). -/
def State.sampleBad (s : State) (q : Nat) (x : Sample) : Bool :=
  let k := x.kind
  let mb := s.reservedBytes q k x.reserved
  !(isMedia k || k = 9 || k = 0xD || k = 0xE) || bits (fieldAt x.raw 13 1) 5 3 ≠ 0 || bits (fieldAt x.raw 14 1) 6 2 ≠ 0 ||
    fieldAt x.raw 28 4 ≠ 0 || (if isVideo k then decide (65535 < x.paramB) else x.paramB ≠ 0) ||
    (k ≠ 0xD && x.length = 0) || (k = 9 && decide (2 ^ 26 < x.length)) ||
    (k = 9 && !(decide (32 ≤ x.slot) && decide (x.slot ≤ 35))) || (k = 0xE && decide (35 < x.slot)) ||
    (x.live && !(isImage k || isVideo k)) || (isMedia k && x.reserved = 0) || decide (s.inL q < x.reserved) ||
    decide (s.inMedia q < mb) || decide (2 ^ 32 ≤ x.reserved * s.posElems q k) || decide (s.inSlot q < mb)

/-- Whether a near source lies outside the windows of the act (R253); act 0 is not checked (R180). -/
def State.sampleOut (s : State) (q : Nat) (x : Sample) : Bool :=
  x.kind ≠ 0xD && x.flag 0 && s.qAct q ≠ 0 && !s.nearWindow (s.qAct q) x.src x.length false

/-- The reasons that make an entry void at its fetch (R253, R268 to R270). -/
def State.fetchReasons (s : State) (q : Nat) (x : Sample) : List Nat :=
  (if s.sampleBad q x then [9] else []) ++ (if s.sampleOut q x then [10] else []) ++
    (if x.kind = 9 && (s.textGen q x).isNone then [8] else []) ++
    (if x.kind = 0xE && s.qAct q ≠ 0 && s.fld (Reg.tsSlot x.slot) Fld.tsSlotOwner ≠ s.qAct q then [10] else []) ++
    (match s.staleDeadline q x with | some d => if d < (s.now : Int) then [6] else [] | none => [])

/-- A sample as its entry is read. -/
def newSample (count : Nat) (raw : Bytes) : Sample :=
  { count := count, raw := raw, gen := 0, state := .fetched, headSince := none, positions := 0, tokens := [], media := [],
    width := 0, height := 0, depth := 0, errAt := 0, placed := 0 }

/-- Whether batch `n` may be filled: its buffer is open (R263). -/
def State.batchOpen (s : State) (q : Nat) : Bool :=
  let n := (s.queue q).batch.number
  let rel := s.fld (Reg.inBatch q) Fld.inBatchReleased
  decide ((n + 2 ^ 32 - rel) % 2 ^ 32 < s.inNb q)

/-- Gives the head its stamp (R266). -/
def State.stampHead (s : State) (q : Nat) : State :=
  s.modQueue q fun k => { k with samples := match k.samples with
    | x :: xs => { x with headSince := x.headSince.or (some s.now) } :: xs
    | [] => [] }

/-! Engines. -/

/-- Whether the part has an engine, and how many samples it takes at once (Table 9.3, R255). -/
def State.engineCap (s : State) (kind e : Nat) : Nat :=
  match kind with
  | 0 => if e < 6 then 1 else 0
  | 1 => if e = 0 ∨ (e = 1 ∧ s.fuse.grade = 1) then 6 else 0
  | _ => if e < 2 then 1 else 0

/-! Void slots. -/

/-- The completion status of a void reason (Table 9.6). -/
def voidStatus (r : Nat) : Nat :=
  match r with
  | 6 => 0x31 | 7 => 0x32 | 8 => 0x10 | 9 => 0x02 | 10 => 0x03
  | _ => 0x30

/-- The reasons of a voided sample. -/
def Sample.reasons (x : Sample) : List Nat := match x.state with | .voided l _ => l | _ => []

/-- The status of a sample (R13, R265). -/
def Sample.status (x : Sample) : Nat := statusOf (x.reasons.map voidStatus)

/-- The reason that gives a void its status: the first with that status. -/
def Sample.reason (x : Sample) : Nat := (x.reasons.find? fun r => voidStatus r = x.status).getD 0

/-- Changes the sample with a count. -/
def State.modSample (s : State) (q count : Nat) (f : Sample → Sample) : State :=
  s.modQueue q fun k => { k with samples := k.samples.map fun x => if x.count = count then f x else x }

/-- Makes a sample void for a reason, at the present tick. -/
def State.voidSample (s : State) (q count reason : Nat) : State :=
  s.modSample q count fun x =>
    { x with state := match x.state with
        | .voided l t => .voided (if l.contains reason then l else l ++ [reason]) t
        | _ => .voided [reason] s.now }

/-- A budget or staleness void: IN.TIMING, and one GUARANTEE_YIELDED event (R267, R268, R215). -/
def State.timingVoid (s : State) (q count reason deadline : Nat) : State :=
  let s := (s.voidSample q count reason).setFld (Reg.inTiming q) Fld.inTimingVoided 1
  s.yielded (s.qAct q) 4 3 (voidStatus reason) deadline

/-- The 64-bit word of an instant that may lie before the epoch. -/
def stamp64 (d : Int) : Nat := ofSigned 64 d

/-! Placement. -/

/-- Closes the open batch and turns to the next buffer (R261, `next_batch`). -/
def State.nextBatch (s : State) (q : Nat) : State :=
  s.modQueue q fun k =>
    { k with closed := k.closed ++ [k.batch], batch := { Batch.reset with number := (k.batch.number + 1) % 2 ^ 32 } }

/-- Turns to the next sequence (R261, `next_sequence`). -/
def State.nextSequence (s : State) (q : Nat) : State :=
  let s := s.modQueue q fun k => { k with batch := { k.batch with s := k.batch.s + 1, p := 0 } }
  if (s.queue q).batch.s = s.inB q then s.nextBatch q else s

/-- Segments of the sequence being filled. -/
def Batch.segs (b : Batch) : Nat := (b.segments.filter fun g => g.seq = b.s).length

/-- The positions that a sample takes (R260, R261, R265). A reservation that a check found too large is held to L. -/
def State.takes (s : State) (q : Nat) (x : Sample) : Nat :=
  if x.kind = 0xD ∨ x.kind = 0xE then 0
  else if x.kind = 9 ∧ x.reserved = 0 then (if x.reasons = [] then x.tokens.length else 0)
  else min x.reserved (s.inL q)

/-- The media bytes that a sample takes; none when a check found the reservation itself too large. -/
def State.takesMedia (s : State) (q : Nat) (x : Sample) : Nat :=
  let mb := s.reservedBytes q x.kind x.reserved
  if s.inMedia q < mb ∨ s.inL q < x.reserved then 0 else mb

/-- Adds a segment of `n` positions of a sample to the open batch. A decoded media sample is converted here, into the
statistics slot with STEP the batch number (R259). -/
def State.addSegment (s : State) (q : Nat) (x : Sample) (n mb : Nat) (trunc more : Bool) : State :=
  let b := (s.queue q).batch
  let good := x.reasons = []
  let conv := s.convertMedia q x.count x.media
  let s := if good && isMedia x.kind then
      s.mergeStat (s.qAct q) (s.fld (Reg.inOut q) Fld.inOutStatSlot) b.number conv.2
    else s
  let g : Segment :=
    { seq := b.s, start := b.p, count := n, entry := x.count, kind := x.kind, branch := x.branch, valid := good,
      trunc := trunc, cont := decide (0 < x.placed), more := more, status := x.status, reason := x.reason,
      media := if mb = 0 then none else some (b.m / 256), mediaBytes := if good then conv.1 else [],
      live := if !good then 0 else if isMedia x.kind then x.positions else min n (x.tokens.length - x.placed),
      tokens := (x.tokens.drop x.placed).take n, width := x.width, height := x.height, depth := x.depth }
  s.modQueue q fun k =>
    { k with batch := { k.batch with segments := k.batch.segments ++ [g], p := k.batch.p + n, m := k.batch.m + mb,
                                     firstEntry := k.batch.firstEntry.or (some x.count),
                                     timing := k.batch.timing || x.reasons.any fun r => r = 6 || r = 7 } }

/-- What one step of `place` did: it goes on, the sample has been placed, or the next buffer is not open. -/
inductive Placing where
  | again | done | stalled
  deriving DecidableEq, Repr

/-- One step of `place` (R261) for the head sample. -/
def State.placeStep (s : State) (q : Nat) (x : Sample) : State × Placing :=
  let b := (s.queue q).batch
  let n := s.takes q x
  let l := s.inL q
  let split := s.flag (Reg.inOut q) Fld.inOutSplit
  if !s.batchOpen q then (s, .stalled)
  else if x.kind = 9 ∧ split ∧ 0 < n ∧ 0 < x.placed then
    if b.p = l ∨ b.segs = s.inSegMax q then (s.nextSequence q, .again)
    else piece s b n l
  else if b.segs = s.inSegMax q then (s.nextSequence q, .again)
  else if s.inMedia q - b.m < s.takesMedia q x then (s.nextBatch q, .again)
  else if x.kind = 9 ∧ split ∧ 0 < n then
    if b.p = l then (s.nextSequence q, .again) else piece s b n l
  else
    let t := x.kind = 9 ∧ (l < n ∨ (x.reasons = [] ∧ n < x.tokens.length))
    let n := min n l
    if l - b.p < n then (s.nextSequence q, .again)
    else (s.addSegment q x n (s.takesMedia q x) (decide t) false, .done)
where
  /-- Places the next piece of a split text. -/
  piece (s : State) (b : Batch) (n l : Nat) : State × Placing :=
    let k := min (n - x.placed) (l - b.p)
    let more := decide (k < n - x.placed)
    let t := decide (x.reasons = [] ∧ n < x.tokens.length)
    let s := s.addSegment q x k 0 t more
    (s.modSample q x.count fun y => { y with placed := y.placed + k }, if more then .again else .done)

/-- Runs `place` for the head until it is placed or stalls. The first argument bounds the steps. -/
def State.placeRun (q : Nat) : Nat → State → State × Bool
  | 0, s => (s, false)
  | n + 1, s =>
    match (s.queue q).samples with
    | [] => (s, false)
    | x :: _ =>
      match s.placeStep q x with
      | (t, .again) => State.placeRun q n t
      | (t, .done) => (t, true)
      | (t, .stalled) => (t, false)

/-- A LIVE sample's admission stamp: the later of the tick it became the head and its decode (R268). -/
def Sample.admitted (x : Sample) : Option Nat :=
  match x.headSince, x.state with
  | some h, .decoded t => some (max h t)
  | some h, .voided _ t => some (max h t)
  | _, _ => none

/-- A sample admitted after its staleness deadline is void (R268). -/
def State.takeIn (s : State) (q : Nat) (x : Sample) : State :=
  match s.staleDeadline q x, x.admitted with
  | some d, some a =>
    if d < (a : Int) ∧ x.reasons.contains 6 = false then s.timingVoid q x.count 6 (stamp64 d) else s
  | _, _ => s

/-- Counts a void and writes an INPUT event for each of its reasons (R265, Table 9.11). -/
def State.reportVoid (s : State) (q : Nat) (x : Sample) : State :=
  if x.reasons = [] then s
  else
    let st := x.status
    let f := if st = 0x30 then Fld.inVoidsSampleVoid else if st = 0x31 then Fld.inVoidsFrameStale
      else if st = 0x32 then Fld.inVoidsDecodeOverrun else Fld.inVoidsOther
    let s := s.addSat (Reg.inVoids q) f 1
    s.each x.reasons fun r s =>
      let at_ := if r = 1 ∨ r = 2 then x.errAt
        else if r = 6 then (match s.staleDeadline q x with | some d => stamp64 d | none => 0)
        else if r = 7 then x.errAt else 0
      let a := s.qAct q
      s.event { typ := 0x08, severity := openSeverity 0x08 (voidStatus r), status := voidStatus r, act := a,
                isOffset := false, queue := some q, core := 0xFFFF, phys := 0xFFFF, mw1 := q ≥ 0x8000, stamp := s.now,
                tag := 0, payload := inputPayload x.count r x.kind x.slot x.gen (s.queue q).batch.number at_ }

/-- The head leaves the window: its completion waits for its batch and for earlier entries (R263). -/
def State.headPlaced (s : State) (q : Nat) (x : Sample) (batch : Option Nat) : State :=
  let c : PendCmpl := { count := x.count, status := x.status, more := x.reasons.any (fun r => voidStatus r ≠ x.status),
                        batch := batch }
  s.modQueue q fun k => { k with samples := k.samples.drop 1, pendCmpl := k.pendCmpl ++ [c] }

/-- Whether a batch has still to be emitted. -/
def Queue.unemitted (k : Queue) (n : Nat) : Bool := k.batch.number = n || k.closed.any fun b => b.number = n

/-- Completes the entries whose turn has come (R263). The first argument bounds the walk. -/
def State.completeReady (q : Nat) : Nat → State → State
  | 0, s => s
  | n + 1, s =>
    match (s.queue q).pendCmpl with
    | [] => s
    | c :: rest =>
      if (match c.batch with | some b => (s.queue q).unemitted b | none => false) then s
      else
        State.completeReady q n ((s.modQueue q fun k => { k with pendCmpl := rest }).complete q c.count c.status c.more)

/-- Whether the head can be placed: decoded or voided, a FLUSH, or a load carried out (R264). -/
def Sample.ready (x : Sample) : Bool :=
  match x.state with
  | .decoded _ => true
  | .voided _ _ => true
  | _ => x.kind = 0xD

/-- Places heads in count order while they are ready (R261, R264). The first argument bounds the walk. -/
def State.placeHeads (q : Nat) : Nat → State → State
  | 0, s => s
  | n + 1, s =>
    match (s.queue q).samples with
    | [] => s
    | x0 :: _ =>
      let s := s.stampHead q
      let s := if x0.placed = 0 then s.takeIn q ((s.queue q).samples.head?.getD x0) else s
      let x := (s.queue q).samples.head?.getD x0
      if !x.ready then s
      else if x.kind = 0xE ∧ !(s.sampleBad q x || s.sampleOut q x) then State.placeHeads q n (s.headPlaced q x none)
      else if x.kind = 0xD ∧ x.reasons = [] then
        let s := if (s.queue q).batch.segments = [] then s else s.nextBatch q
        State.placeHeads q n (s.headPlaced q x none)
      else
        match State.placeRun q (2 * s.takes q x + 2 * s.inB q + 8) s with
        | (t, true) =>
          let t := t.reportVoid q x
          State.placeHeads q n (t.headPlaced q x (some (t.queue q).batch.number))
        | (t, false) => t.setFld (Reg.inStatus q) Fld.inStatusFreeWait 1

/-- Carries the emitter of a queue as far as it goes. -/
def State.runEmitter (s : State) (q : Nat) : State :=
  let s := s.setFld (Reg.inStatus q) Fld.inStatusFreeWait 0
  let s := State.placeHeads q ((s.queue q).samples.length + 1) s
  let s := State.completeReady q ((s.queue q).pendCmpl.length) s
  s.stampHead q

/-! Batches. -/

/-- The header of an emitted batch (Table 9.4). -/
def batchHeader (b : Batch) (seqs now : Nat) : Bytes :=
  leBytes 4 b.number ++ leBytes 4 (b.firstEntry.getD 0) ++ leBytes 4 b.segments.length ++
    leBytes 4 (b.segments.filter fun g => !g.valid).length ++ leBytes 1 (b2n b.timing) ++ leBytes 3 0 ++ leBytes 4 b.m ++
    leBytes 8 now ++ List.replicate 480 0 ++
    ((List.range seqs).flatMap fun i => leBytes 2 (b.segments.filter fun g => g.seq = i).length) ++
    List.replicate (512 - 2 * seqs) 0

/-- A segment descriptor (Table 9.5). -/
def descriptorBytes (g : Segment) : Bytes :=
  leBytes 4 g.start ++ leBytes 4 g.count ++ leBytes 4 g.entry ++ leBytes 1 (g.kind + g.branch * 16) ++
    leBytes 1 (b2n g.valid + b2n g.trunc * 2 + b2n g.cont * 4 + b2n g.more * 8) ++ leBytes 1 g.status ++
    leBytes 1 g.reason ++ leBytes 4 (g.media.getD 0xFFFFFFFF) ++ leBytes 2 g.width ++ leBytes 2 g.height ++
    leBytes 4 g.depth ++ leBytes 4 0

/-- The segments of a sequence with their IDs. -/
def Batch.seqSegs (b : Batch) (i : Nat) : List (Nat × Segment) := indexed 0 (b.segments.filter fun g => g.seq = i)

/-- The segment at a position, with its ID. -/
def segAt (l : List (Nat × Segment)) (p : Nat) : Option (Nat × Segment) :=
  l.find? fun g => decide (g.2.start ≤ p) && decide (p < g.2.start + g.2.count)

/-- Whether a position of a segment holds valid data. -/
def Segment.lives (g : Segment) (p : Nat) : Bool := g.valid && decide (p - g.start < g.live)

/-- The planes of a sequence of `l` positions (R260, R261, R265, Table 9.4). -/
def Batch.planes (b : Batch) (i l segMax : Nat) : Bytes :=
  let gs := b.seqSegs i
  let ps := (List.range l).map fun p => (p, segAt gs p)
  let ids := ps.flatMap fun e => leBytes 2 (match e.2 with | some g => if g.2.lives e.1 then g.1 else 0xFFFF | none => 0xFFFF)
  let branch := ps.flatMap fun e => leBytes 1 (match e.2 with | some g => g.2.branch | none => 0xFF)
  let on := ps.map fun e => match e.2 with | some g => g.2.lives e.1 | none => false
  let mask := (chunks on.length 8 on).flatMap fun c => leBytes 1 ((indexed 0 c).foldl (fun a p => a + b2n p.2 * 2 ^ p.1) 0)
  let tokens := ps.flatMap fun e =>
    leBytes 4 (match e.2 with
      | some g => if g.2.lives e.1 then ((g.2.tokens[e.1 - g.2.start]?).getD 0).toNat else 0
      | none => 0)
  padTo (up256 (2 * l)) ids ++ padTo (up256 l) branch ++ padTo (up256 (l / 8)) mask ++ padTo (up256 (4 * l)) tokens ++
    padTo (up256 (32 * segMax)) (gs.flatMap fun g => descriptorBytes g.2)

/-- The media area of a batch: each tensor at its offset, every other byte zero. -/
def Batch.mediaArea (b : Batch) (size : Nat) : Bytes :=
  let gs := b.segments.filterMap fun g => g.media.map fun m => (256 * m, g.mediaBytes)
  gs.foldl (fun bs g => bs.take g.1 ++ g.2 ++ bs.drop (g.1 + g.2.length)) (List.replicate size 0)

/-- BATCH_EMIT: the oldest closed batch is in memory whole, its header last; EMIT_SEM takes 1, and the entries it holds
complete (R263). -/
def State.batchEmit (s : State) (q : Nat) : State :=
  match (s.queue q).closed with
  | [] => s
  | b :: rest =>
    if !s.alive || !s.qCreated q || s.qType q ≠ 2 then s
    else
      let base := s.reg (Reg.inBatchBase q) + b.number % s.inNb q * s.inBuf q
      let s := s.each (List.range (s.inB q)) fun i s =>
        s.writeMem .near (base + 1024 + i * s.inQ q) (b.planes i (s.inL q) (s.inSegMax q))
      let s := s.writeMem .near (base + s.inMoff q) (b.mediaArea (s.inMedia q))
      let s := s.writeMem .near base (batchHeader b (s.inB q) s.now)
      let s := s.modQueue q fun k => { k with closed := rest }
      let s := s.addSem (s.qAct q) (s.fld (Reg.inSems q) Fld.inSemsEmitSem) 1
      s.runEmitter q

/-- BATCH_RELEASE: RELEASED counts a batch that the act has finished with (R263). -/
def State.batchRelease (s : State) (q : Nat) : State :=
  let a := s.qAct q
  let k := s.fld (Reg.inSems q) Fld.inSemsFreeSem
  if s.alive ∧ s.qCreated q ∧ s.qType q = 2 ∧ 1 ≤ s.sem a k then
    ((s.setSem a k (s.sem a k - 1)).addOpen (Reg.inBatch q) Fld.inBatchReleased 1).runEmitter q
  else s

/-! The engines' events. -/

/-- SAMPLE_FETCH: the next entry of a running sample queue, while its window has room and no load holds it (R253,
R270). -/
def State.sampleFetch (s : State) (q : Nat) : State :=
  let k := s.queue q
  let n := k.pendCmpl.length + k.samples.length
  if s.alive ∧ s.qCreated q ∧ s.qType q = 2 ∧ s.qRunning q ∧ k.control = none ∧ k.samples.length < s.inWindow q ∧
      k.loading = false ∧ n < s.qUsed q then
    let c := (s.qCons q + n) % 2 ^ 32
    let x := newSample c (s.readEntry q c)
    let r := s.fetchReasons q x
    let x := { x with gen := (s.textGen q x).getD (fieldAt x.raw 15 1)
                      state := if r = [] then .fetched else .voided r s.now }
    let s := s.modQueue q fun k => { k with samples := k.samples ++ [x] }
    (match s.staleDeadline q x with
      | some d => if r.contains 6 then s.timingVoid q c 6 (stamp64 d) else s
      | none => s).runEmitter q
  else s

/-- The queue, homed on Midway `m`, that an engine kind serves next, and the sample it takes: round-robin over the
queues, the lowest undispatched count within one (R253). -/
def State.nextSample (s : State) (m kind : Nat) : Option (Nat × Sample) :=
  let ready := s.queues.filterMap fun p =>
    if homeMidway p.1 = m then
      (p.2.samples.find? fun x => x.state = .fetched && x.kind ≠ 0xD && x.kind ≠ 0xE && engineOf x.kind = kind).map
        fun x => (p.1, x)
    else none
  let last := Sparse.get 65535 s.inputRr (m * 4 + kind)
  (ready.find? fun r => decide (last < r.1)).or ready.head?

/-- DECODE_DISPATCH: a free engine takes a sample; a frame that is stale already is voided instead (R253, R267,
R268). -/
def State.decodeDispatch (s : State) (m kind e : Nat) : State :=
  if !s.alive || decide (s.engineCap kind e ≤ s.engineLoad m kind e) then s
  else
    match s.nextSample m kind with
    | none => s
    | some (q, x) =>
      let s := { s with inputRr := Sparse.put s.inputRr (m * 4 + kind) q }
      match s.staleDeadline q x with
      | some d =>
        if d < (s.now : Int) then (s.timingVoid q x.count 6 (stamp64 d)).runEmitter q
        else s.modSample q x.count fun y => { y with state := .dispatched e s.now }
      | none => s.modSample q x.count fun y => { y with state := .dispatched e s.now }

/-- Whether a sample's source cannot be read: a poison mark, or a failed read of host memory (Table 9.6). -/
def State.unreadable (s : State) (x : Sample) (readFailed : Bool) : Bool :=
  s.marked x.space x.src x.length || (readFailed && x.space = .host)

/-- The decode of a sample's source bytes, which a poison mark or a failed host read leaves unreadable (Table 9.6). -/
def State.decodeOf (s : State) (q : Nat) (x : Sample) (readFailed : Bool) : Decoded :=
  let data := s.readMem x.space x.src x.length
  if s.unreadable x readFailed then Decoded.void [4] 0
  else if x.kind = 9 then
    let t := s.tsSlot x.slot
    match (t.cur.toList ++ t.prev.toList).find? fun b => b.gen = x.gen with
    | some b => textSample (parseVocab b.image) (x.flag 2) (x.flag 3) data
    | none => Decoded.void [8] 0
  else
    let d := if isAudio x.kind then s.audio q x.kind x.paramA data else s.picture q x.kind x.paramA x.paramB data
    if d.reasons = [] ∧ x.reserved < d.positions then Decoded.void [3] 0 else d

/-- Counts what an engine decoded, and the voids it found (Table 9.12). -/
def State.countDecode (s : State) (m e : Nat) (x : Sample) (d : Decoded) : State :=
  let s :=
    if isImage x.kind then s.addWrap (Reg.mdImgPixels m) Fld.mdImgPixelsCount d.work
    else if isVideo x.kind then s.addWrap (Reg.mdVidPixels m e) Fld.mdVidPixelsCount d.work
    else if isAudio x.kind then s.addWrap (Reg.mdAudSamples m) Fld.mdAudSamplesCount d.work
    else (s.addWrap (Reg.tokBytes m) Fld.tokBytesCount d.work).addWrap (Reg.tokTokens m) Fld.tokTokensCount d.tokens.length
  let s := if d.reasons.contains 1 then s.addSat (Reg.mdErr m) Fld.mdErrCorrupt 1 else s
  if d.reasons.contains 2 then s.addSat (Reg.mdErr m) Fld.mdErrUnsupported 1 else s

/-- A decoded sample waits in its staging slot (R264). -/
def State.stage (s : State) (q : Nat) (x : Sample) (bytes : Nat) : State :=
  let a := s.reg (Reg.inStageBase q) + x.count % s.inWindow q * s.inSlot q
  if bytes = 0 then s
  else s.drawn.writeMem .near a ((List.range bytes).map fun i => Config.stagingByte s.free i)

/-- The sample with a count that an engine decodes. -/
def State.decoding (s : State) (q count : Nat) : Option (Sample × Nat) :=
  (s.queue q).samples.findSome? fun x =>
    if x.count = count then (match x.state with | .dispatched e _ => some (x, e) | _ => none) else none

/-- DECODE_COMPLETE, on time for its budget (R256, R260, R265, R267). -/
def State.decodeComplete (s : State) (q : Nat) (how : HostIn) : State :=
  match s.decoding q how.n with
  | none => s
  | some (x, e) =>
    if !s.alive || (match s.budgetDeadline q x with | some d => decide (d < s.now) | none => false) then s
    else
      let d := s.decodeOf q x how.readFailed
      let s := s.countDecode (homeMidway q) e x d
      let s := if d.reasons = [] then s.stage q x (s.takesMedia q x) else s
      let s := s.modSample q how.n fun y =>
        { y with state := if d.reasons = [] then .decoded s.now else .voided d.reasons s.now
                 positions := d.positions, tokens := d.tokens, media := d.media, width := d.width, height := d.height,
                 depth := d.depth, errAt := d.errAt }
      s.runEmitter q

/-- DECODE_BUDGET_TIMEOUT: past its deadline a decode is abandoned and its sample void (R200, R267). -/
def State.budgetTimeout (s : State) (q count : Nat) : State :=
  match s.decoding q count with
  | none => s
  | some (x, _) =>
    match s.budgetDeadline q x with
    | some d =>
      if s.alive ∧ d < s.now then
        ((s.timingVoid q count 7 d).modSample q count fun y => { y with errAt := d }).runEmitter q
      else s
    | none => s

/-- STALE_TIMEOUT: past its deadline a live frame that has not been admitted is void, and a decode still running is
abandoned (R200, R268). -/
def State.staleTimeout (s : State) (q count : Nat) : State :=
  match (s.queue q).samples.find? fun x => x.count = count with
  | none => s
  | some x =>
    match s.staleDeadline q x with
    | some d =>
      let onTime := match x.admitted with | some a => decide ((a : Int) ≤ d) | none => false
      if s.alive ∧ d < (s.now : Int) ∧ onTime = false ∧ x.reasons.contains 6 = false then
        (s.timingVoid q count 6 (stamp64 d)).runEmitter q
      else s
    | none => s

/-! Table loads. -/

/-- The TABLE_LOAD of a slot that is carried out next: that of the lowest queue (the order among queues is a DESIGN
CHOICE, log 55). -/
def State.nextLoad (s : State) (slot : Nat) : Option (Nat × Sample) :=
  s.queues.findSome? fun p => (p.2.samples.find? fun x => x.kind = 0xE && x.slot = slot && x.state = .fetched).map
    fun x => (p.1, x)

/-- The two Table Stores take a new current generation, from a load of a queue (R270). -/
def State.commitTable (s : State) (q slot : Nat) (image : Bytes) : State :=
  let t := s.tsSlot slot
  let gen := match t.cur with | some b => (b.gen + 1) % 256 | none => 0
  let s := { s with ts := Sparse.put s.ts slot { cur := some { gen := gen, image := image }, prev := t.cur,
                                                  by_ := some (s.now, q) } }
  (s.showSlot slot).addWrap (Reg.tsSlot slot) Fld.tsSlotLoads 1

/-- TABLE_LOAD_COMMIT: once the bank without the current generation is free of references, the image is read, checked
and committed, or the entry fails with BAD_BUNDLE (R270). -/
def State.tableLoad (s : State) (how : HostIn) : State :=
  let slot := how.n
  match s.nextLoad slot with
  | none => s
  | some (q, x) =>
    if s.alive = false ∨ (s.tsSlot slot).prev.isSome then s
    else
      let image := s.readMem x.space x.src x.length
      let ok := !s.unreadable x how.readFailed && (if slot < 32 then codeTableOk image else vocabOk image)
      let s := if ok then
          let s := (s.commitTable q slot image).modSample q x.count fun y => { y with state := .decoded s.now }
          let gen := s.fld (Reg.tsSlot slot) Fld.tsSlotCurGen
          let a := s.qAct q
          s.event { typ := 0x08, severity := openSeverity 0x08 0, status := 0, act := a, isOffset := false, queue := some q,
                    core := 0xFFFF, phys := 0xFFFF, mw1 := q ≥ 0x8000, stamp := s.now, tag := 0,
                    payload := inputPayload x.count 0x20 0xE slot gen (s.queue q).batch.number 0 }
        else s.modSample q x.count fun y => { y with state := .voided [9] s.now }
      s.runEmitter q

/-! Meanings. -/

/-- SAMPLE_FETCH. -/
def execSampleFetch (q : Nat) (s : State) : Host.Outcome State Fault Refusal := whenUnits s (okQueue q) (s.sampleFetch q)
/-- TABLE_LOAD_COMMIT. -/
def execTableLoadCommit (tslot : HostIn) (s : State) : Host.Outcome State Fault Refusal :=
  whenUnits s (okTslot tslot.n) (s.tableLoad tslot)
/-- DECODE_DISPATCH. -/
def execDecodeDispatch (m kind engine : Nat) (s : State) : Host.Outcome State Fault Refusal :=
  whenUnits s (okTwo m && okFour kind && decide (engine < 6)) (s.decodeDispatch m kind engine)
/-- DECODE_COMPLETE. -/
def execDecodeComplete (q : Nat) (count : HostIn) (s : State) : Host.Outcome State Fault Refusal :=
  whenUnits s (okQueue q) (s.decodeComplete q count)
/-- DECODE_BUDGET_TIMEOUT. -/
def execDecodeBudgetTimeout (q count : Nat) (s : State) : Host.Outcome State Fault Refusal :=
  whenUnits s (okQueue q) (s.budgetTimeout q count)
/-- STALE_TIMEOUT. -/
def execStaleTimeout (q count : Nat) (s : State) : Host.Outcome State Fault Refusal :=
  whenUnits s (okQueue q) (s.staleTimeout q count)
/-- BATCH_EMIT. -/
def execBatchEmit (q : Nat) (s : State) : Host.Outcome State Fault Refusal := whenUnits s (okQueue q) (s.batchEmit q)
/-- BATCH_RELEASE. -/
def execBatchRelease (q : Nat) (s : State) : Host.Outcome State Fault Refusal :=
  whenUnits s (okQueue q) (s.batchRelease q)

end Sys2Proof.Machine
end

