-- ==== Sys2Proof/Machine/Optimizer.lean ====
section
/-! DEFINITION. The optimizer engines (R296 to R301, R307) and the gather (R287, R302). -/

namespace Sys2Proof.Machine

/-! The arithmetic: every operation is binary32 and rounds once (R298, R299). -/

/-- A field of the hyperparameter record (R297). -/
def Bucket.hyper (b : Bucket) (off : Nat) : Nat := fieldAt b.hp off 4

/-- 1 − 2^(t × log2 β), the bias correction (R298). -/
def biasTerm (t beta : Nat) : Nat := f32sub f32one (exp2Fixed (f32mul t (log2Fixed beta).1)).1

/-- AdamW on one element: parameter, first moment and root of the second moment, from those before and the sum (R298).
-/
def adamw (b : Bucket) (p m r s : Nat) : Nat × Nat × Nat :=
  let beta1 := b.hyper 4
  let beta2 := b.hyper 8
  let g := f32mul s (b.hyper 20)
  let v := f32mul r r
  let m := f32add (f32mul beta1 m) (f32mul (f32sub f32one beta1) g)
  let v := f32add (f32mul beta2 v) (f32mul (f32sub f32one beta2) (f32mul g g))
  let bias := bit (b.hyper 28) 0
  let t := (F32.ofInt 0 ((b.step + 1 : Nat) : Int)).1
  let mh := if bias then f32div m (biasTerm t beta1) else m
  let vh := if bias then f32div v (biasTerm t beta2) else v
  let d := f32add (f32div mh (f32add (f32sqrt vh) (b.hyper 12))) (f32mul (b.hyper 16) p)
  (f32sub p (f32mul (b.hyper 0) d), m, f32sqrt v)

/-- Momentum SGD on one element: parameter and momentum (R299). -/
def sgd (b : Bucket) (p m s : Nat) : Nat × Nat :=
  let g := f32add (f32mul s (b.hyper 20)) (f32mul (b.hyper 16) p)
  let m := f32add (f32mul (b.hyper 24) m) g
  let d := if bit (b.hyper 28) 1 then f32add g (f32mul (b.hyper 24) m) else m
  (f32sub p (f32mul (b.hyper 0) d), m)

/-! A half of a shard. -/

/-- The space of the moment area of half `h`. -/
def Bucket.momSpace (b : Bucket) (h : Nat) : Space := if b.msp h = 0 then .near else .far (b.msp h - 4)

/-- The OX16 masters of elements `lo` to `hi`, which lie in the own shard; a marked one reads as NaN (DEDUCED, log
62). -/
def State.masters (s : State) (b : Bucket) (lo hi : Nat) : List Nat :=
  let a := b.master + 2 * (lo - (s.ownShard b).1)
  (List.range (hi - lo)).map fun i =>
    if s.marked .near (a + 2 * i) 2 then 0x7FC0 else s.readNum .near (a + 2 * i) 2

/-- Whether a read of far memory for half `h` that touched a range came to nothing (R187, R190). -/
def Bucket.farLost (b : Bucket) (h a n : Nat) : Bool := b.farBad.any fun u => u.1 = h && rangesHit (a, n) (u.2, 64)

/-- A moment of a half, widened: the groups of a code plane and its scale plane (R296); a group that is marked, or whose read
came to nothing, reads as poisoned (log 62). -/
def State.moments (s : State) (b : Bucket) (h f codes scales n : Nat) : List Nat :=
  let sp := b.momSpace h
  let a := b.mom h
  ((List.range ((n + 127) / 128)).flatMap fun g =>
    let mark := s.marked sp (a + codes + 128 * g) 128 || s.marked sp (a + scales + g) 1 ||
      b.farLost h (a + codes + 128 * g) 128 || b.farLost h (a + scales + g) 1
    let cs := (s.readMem sp (a + codes + 128 * g) 128).map BitVec.toNat
    (groupEls f (s.readNum sp (a + scales + g) 1) cs [] mark).map El.widen).take n

/-- A moment's new planes: SR under the keys of R300, scales derived by R64 with E = 0. -/
def Bucket.storeMoment (b : Bucket) (f flip base : Nat) (xs : List Nat) : List Nat × List Nat :=
  let gs := convertRun f (.sr b.seed (b.tensor ^^^ flip) b.step) (fun i => base + i) xs
  (gs.flatMap fun g => g.2.1, gs.map fun g => g.1)

/-- The update of half `h` of the own shard (R296 to R300). With OPT 0 the parameters stay as they are (DEDUCED, log
63). -/
def State.updateHalf (s : State) (b : Bucket) (h : Nat) : Half :=
  let sp := s.halfSpan b h
  let n := sp.2 - sp.1
  let old := s.masters b sp.1 sp.2
  let pl := (momPlanes n).1
  let plane (i : Nat) := (pl[i]?).getD 0
  let sums := (List.range n).map fun i => ((b.sum[sp.1 - (s.ownShard b).1 + i]?).getD 0).toNat
  let keep (xs : List Nat) := (indexed 0 xs).map fun p => (toOx16 b.md (sp.1 + p.1) p.2).1
  let ps := old.map (widen32 0x40)
  if b.opt = 0 then { base := sp.1, master := old, codes1 := [], scales1 := [], codes2 := [], scales2 := [] }
  else
    let ms := s.moments b h 0x2C (plane 0) (plane 1) n
    if b.opt = 1 then
      let rs := s.moments b h 0x3C (plane 2) (plane 3) n
      let out := List.zipWith (fun a c => adamw b a.1 a.2 c.1 c.2) (ps.zip ms) (rs.zip sums)
      let m1 := b.storeMoment 0x2C 0x80000000 sp.1 (out.map (·.2.1))
      let m2 := b.storeMoment 0x3C 0xC0000000 sp.1 (out.map (·.2.2))
      { base := sp.1, master := keep (out.map (·.1)), codes1 := m1.1, scales1 := m1.2, codes2 := m2.1, scales2 := m2.2 }
    else
      let out := List.zipWith (fun a c => sgd b a.1 a.2 c) (ps.zip ms) sums
      let m1 := b.storeMoment 0x2C 0x80000000 sp.1 (out.map (·.2))
      { base := sp.1, master := keep (out.map (·.1)), codes1 := m1.1, scales1 := m1.2, codes2 := [], scales2 := [] }

/-! Scheduling. -/

/-- Whether an act's buckets wait for each other: WAIT = COUNT (R301). -/
def State.counts (s : State) (a : Nat) : Bool := s.flag (Reg.carBktCtl a) Fld.carBktCtlWait

/-- Whether engine `e` may take a bucket's shard: its sum is complete, and under COUNT every bucket of the act in flight
has finished its reduce-scatter (R301). The engine is free once it has read what it took last. -/
def State.mayTake (s : State) (e : Nat) (b : Bucket) : Bool :=
  (b.state = .vote || b.state = .update) && !b.taken.contains e && (s.buckets.all fun p => !p.2.reads e) &&
    (!s.counts b.act || s.buckets.all fun p => p.2.act ≠ b.act || (p.2.state ≠ .held && p.2.state ≠ .reduce))

/-- The order of taking: completion of the sum under EAGER, then the tag (R301). -/
def State.takeKey (s : State) (b : Bucket) : Nat :=
  (if s.counts b.act then 0 else b.sumAt.getD 0) * 65536 + b.tag

/-- The moment bytes of half `h`: what the rule that OPT names keeps (R296). -/
def State.momLength (s : State) (b : Bucket) (h : Nat) : Nat :=
  let sp := s.halfSpan b h
  let pl := momPlanes (sp.2 - sp.1)
  match b.opt with
  | 0 => 0
  | 1 => pl.2
  | _ => pl.2 / 2

/-- Updates the half that engine `e` took of bucket `k`, once no far request for its moments waits or is outstanding (R191). -/
def State.settleHalf (s : State) (k e : Nat) : State :=
  s.onBucket k fun b s =>
    let waits (l : List (Nat × List FarReq)) : Bool := l.any fun p => p.2.any fun r => r.owner = .half k e
    if b.reads e && !waits s.farReqs && !waits s.farAsks then
      s.modBucket k fun b => { b with halves := Sparse.put b.halves e (s.updateHalf b e) }
    else s

/-- OPTIMIZER_TAKE_SHARD: the next shard in the order of R301; what the engine did before waits for its commit. Far moments are
read first (R191). -/
def State.takeShard (s : State) (e k : Nat) : State :=
  s.onBucket k fun b s =>
    if s.mayTake e b && s.buckets.all (fun p => !s.mayTake e p.2 || decide (s.takeKey b ≤ s.takeKey p.2)) then
      let s := s.each (s.buckets.map (·.1)) fun j s =>
        s.modBucket j fun b => { b with computing := b.computing.filter (· ≠ e) }
      let s := s.modBucket k fun b =>
        { b with taken := b.taken ++ [e], computing := e :: b.computing.filter (· ≠ e) }
      let s := (s.askFar (b.momSpace e) (b.mom e) (s.momLength b e) false (.half k e)).settleHalf k e
      if s.counts b.act then s.markOnce s.optMark (fun l s => { s with optMark := l }) b 4 else s
    else s

/-! The end of a bucket. -/

/-- Whether every shard has been stored (R302). -/
def State.allStored (s : State) (b : Bucket) : Bool :=
  (List.range (s.ringLen b)).all fun k =>
    (blockPlan b.wfmt (s.shard b k).1 (s.shard b k).2).length ≤ (Sparse.get (0, 0) b.stored k).1

/-- The bucket's AMAX: the largest of the shards' (R302). -/
def Bucket.amax (b : Bucket) : Nat := b.aux.foldl (fun a p => max a p.2.1) 0

/-- When every shard is stored the bucket ends: history, STATUS record, DONE_SEM, events (R302). The gather of a
restored master reports to nobody (R353; DEDUCED, log 84). -/
def State.finishBucket (s : State) (k : Nat) : State :=
  s.onBucket k fun b s =>
    if b.state = .gather ∧ s.allStored b = true ∧ b.regather = true then
      { s with buckets := Sparse.del s.buckets k }
    else if b.state = .gather ∧ s.allStored b = true then
      let s := if b.conds.contains 0x20 then s
        else { s with history := (tagKey b.act b.tag, b.step, b.amax) ::
                        s.history.filter fun h => h.1 ≠ tagKey b.act b.tag }
      let s := s.endBucket b ((b.conds.filter fun c => c ≠ 0x40 && c ≠ 0x10).eraseDups)
      { s with buckets := Sparse.del s.buckets k }
    else s

/-! Gather. -/

/-- The place of the next block of shard `k` in memory (R302). -/
def Bucket.nextPlace (b : Bucket) (k : Nat) : Nat := b.work + k * b.wstride + (Sparse.get (0, 0) b.stored k).2

/-- The lowest NaN that a gather block delivers, with the device that made it where the block says so. -/
def gatherNan (h : BlkHdr) (image payload : Bytes) : Option (Nat × Nat) :=
  (firstNan h.first ((expandBlock h image payload).widened h.fmt h.poison)).map fun i => (i, h.coord)

/-- Stores a block of shard `k` behind those stored before it, padded with zeros to 32 bytes (R285, R302). -/
def State.storeBlock (s : State) (key k : Nat) (bs : Bytes) : State :=
  s.onBucket key fun b s =>
    let h := blockHdr bs
    let st := Sparse.get (0, 0) b.stored k
    let n := blockSize (bs.length - 32)
    let s := s.writeMem .near (b.nextPlace k) (padTo n bs)
    s.modBucket key fun b =>
      { b with stored := Sparse.put b.stored k (st.1 + 1, st.2 + n), aux := Sparse.put b.aux k (h.aux, h.coord) }

/-- The shard that a gather block of HOP t brings: (d − t) mod n, which the neighbour sends in transmission t (R302). -/
def State.gatherShard (s : State) (b : Bucket) (t : Nat) : Nat := s.sentShard b t

/-- The accepted block that comes next in shard `k`. -/
def State.nextArrived (s : State) (b : Bucket) (k : Nat) : Option Bytes :=
  match (blockPlan b.wfmt (s.shard b k).1 (s.shard b k).2)[(Sparse.get (0, 0) b.stored k).1]? with
  | some p => b.arrived.find? fun bs => (blockHdr bs).first = p.1 && s.gatherShard b (blockHdr bs).hop = k
  | none => none

/-- Stores the accepted blocks of shard `k` that follow on. The first argument bounds the walk. -/
def State.storeRun (key k : Nat) : Nat → State → State
  | 0, s => s
  | n + 1, s =>
    match Sparse.get? s.buckets key with
    | none => s
    | some b =>
      match s.nextArrived b k with
      | some bs =>
        State.storeRun key k n
          ((s.modBucket key fun b => { b with arrived := b.arrived.filter (· ≠ bs) }).storeBlock key k bs)
      | none => s

/-- Sends a gather block on; the step's first one marks the phase (R302, R304). -/
def State.sendGather (s : State) (key : Nat) (b : Bucket) (h : BlkHdr) (payload : Bytes) : State :=
  (s.markOnce s.gatherMark (fun l s => { s with gatherMark := l }) b 5).sendBlock key b h payload

/-- The gather blocks of the own shard from its master codes: PREFIX under the slot's current generation where every
symbol has a code and the payload fits, otherwise RAW (R302; the fall-back is a DESIGN CHOICE, log 64). -/
def State.gatherBlocks (s : State) (b : Bucket) (codes : List Nat) (aux coord : Nat) : List (BlkHdr × Bytes) :=
  let o := s.ownShard b
  let plan := blockPlan b.wfmt o.1 o.2
  let last := (plan.getLast?.map (·.1)).getD 0
  plan.map fun p =>
    let n := min p.2 (o.2 - p.1)
    let xs := ((codes.drop (p.1 - o.1)).take n).map (widen32 0x40)
    let gs := convertRun b.wfmt b.md (fun i => p.1 + i) xs
    let h := { plainHdr 2 b.wfmt p.1 p.2 with
      scale := b.agreed, tag := b.tag, step := b.step, hop := 1, last := decide (p.1 = last), aux := aux, coord := coord }
    let cur := if b.wmode = 1 then (s.tsSlot b.wslot).cur else none
    match cur with
    | none => (h, rawPayload b.wfmt gs)
    | some t =>
      match (if fieldAt t.image 4 1 / 16 = fmtType b.wfmt then prefixPayload b.wfmt t.image gs else none) with
      | some bs => ({ h with mode := 1, slot := b.wslot, gen := t.gen }, bs)
      | none => (h, rawPayload b.wfmt gs)

/-- Writes a half's results: master and moments (R296, R300). -/
def State.commitHalf (s : State) (b : Bucket) (e : Nat) (u : Half) : State :=
  let n := u.master.length
  if b.opt = 0 ∨ n = 0 then s
  else
    let pl := (momPlanes n).1
    let plane (i : Nat) := b.mom e + (pl[i]?).getD 0
    let bytes (l : List Nat) : Bytes := l.map (BitVec.ofNat 8)
    let s := s.writeMem .near (b.master + 2 * (u.base - (s.ownShard b).1)) (u.master.flatMap (leBytes 2))
    let s := (s.writeMem (b.momSpace e) (plane 0) (bytes u.codes1)).writeMem (b.momSpace e) (plane 1) (bytes u.scales1)
    let s := if b.opt = 1 then
        (s.writeMem (b.momSpace e) (plane 2) (bytes u.codes2)).writeMem (b.momSpace e) (plane 3) (bytes u.scales2)
      else s
    (s.askFar (b.momSpace e) (b.mom e) (s.momLength b e) true .agent).addWrap (Reg.optUpdated e) Fld.optUpdatedCount n

/-- The AMAX of the own shard's sum: its largest finite magnitude (R302). -/
def Bucket.ownAmax (b : Bucket) : Nat :=
  b.sum.foldl (fun a w => if F32.isFin w.toNat then max a (F32.mag w.toNat) else a) 0

/-- The commit of a bucket: both halves and the votes being complete, the update is committed, or discarded when the bucket is
poisoned under HOLD; the gather begins (R295, R296, R302). -/
def State.commit (s : State) (key : Nat) : State :=
  s.onBucket key fun b s =>
    if b.state = .update ∧ b.taken.length = 2 ∧ b.halves.length = 2 ∧ s.votesMissing b = false then
      let poison := if s.holds_ b.act then b.voted else b.origin.or b.poison
      let held := s.holds_ b.act && poison.isSome
      let half (e : Nat) : Half := Sparse.get { base := 0, master := [], codes1 := [], scales1 := [], codes2 := [],
                                                 scales2 := [] } b.halves e
      let o := s.ownShard b
      let codes := if held then s.masters b o.1 o.2 else (half 0).master ++ (half 1).master
      let s := s.each [0, 1] fun e s =>
        if held then
          (if b.opt = 0 then s else s.addWrap (Reg.optHeld e) Fld.optHeldCount (half e).master.length)
        else s.commitHalf b e (half e)
      let aux := if held then (poison.getD (0, 0)).1 else b.ownAmax
      let coord := if held then (poison.getD (0, 0)).2 else 0xFFFF
      let s := s.modBucket key fun b =>
        let b := { b with state := .gather, computing := [], poison := poison,
                          aux := Sparse.put b.aux (s.ringAt b) (aux, coord) }
        if poison.isSome then b.cond 0x20 else b
      let s := s.each (s.gatherBlocks b codes aux coord) fun r s =>
        let s := s.storeBlock key (s.ringAt b) (blockBytes r.1 r.2)
        if 1 < s.ringLen b then s.sendGather key b r.1 r.2 else s
      s.finishBucket key
    else s

/-- Whether a gather block fits what its owner may send in that HOP (R286, R302). -/
def State.gatherFits (s : State) (b : Bucket) (h : BlkHdr) : Bool :=
  let sh := s.shard b (s.gatherShard b h.hop)
  h.kind = 2 && h.fmt = b.wfmt && (h.mode = 0 || (h.mode = 1 && b.wmode = 1)) &&
    (blockPlan b.wfmt sh.1 sh.2).contains (h.first, h.elements) && lastFits (blockPlan b.wfmt sh.1 sh.2) h

/-- What a gather block shows of poison under PROPAGATE; an owner whose own shard is poisoned reports that one's position
(R295; DEDUCED, log 146). -/
def State.gatherPoison (s : State) (key : Nat) (o : Option (Nat × Nat)) : State :=
  s.onBucket key fun b s =>
    if o.isSome && !s.holds_ b.act then
      s.modBucket key fun b =>
        { b.cond 0x20 with poison := if b.state = .gather ∧ b.origin.isSome then b.poison else lowerPoison b.poison o }
    else s

/-- A gather block that arrives: checked, stored in its place, and forwarded unchanged but for HOP and the CRC that
covers it. A block whose generation is not held is stored as it came (R286, R287, R302). -/
def State.gatherBlock (s : State) (p : Nat) (f : Frame) : State :=
  let h := parseHdr f.ext
  let src := f.src.toNat
  match s.bucketFrom src h.tag h.step with
  | none => s.addrDrop p
  | some (key, b) =>
    if h.hop = 0 ∨ s.ringLen b ≤ h.hop then s.addrDrop p
    else if b.accepted.contains (blockId h.kind h.hop h.first) then s.sendAck src (blockAck b.tag h.hop h.first)
    else
      let image := if h.mode = 1 then s.tableImage h.slot h.gen else some []
      let fits := s.gatherFits b h
      let lost := image.isNone && crcFits f.ext f.payload && hdrFits f.ext && fits && f.payload.length = h.packed
      match (if lost then none else blockStatus f h fits (image.getD [])) with
      | some st => s.blockFailed p key b h st src
      | none =>
        let k := s.gatherShard b h.hop
        let s := s.blockAccepted key b h src
        let s := if lost then (s.gradient b 0x10 h.first (s.ringBefore b) 0).modBucket key (·.cond 0x10)
          else s.gatherPoison key (gatherNan h (image.getD []) f.payload)
        let s := s.modBucket key fun b => { b with arrived := b.arrived ++ [f.ext ++ f.payload] }
        let s := State.storeRun key k (b.arrived.length + 1) s
        let s := if h.hop + 1 < s.ringLen b then s.sendGather key b { h with hop := h.hop + 1 } f.payload else s
        s.finishBucket key

/-! Meanings. -/

/-- OPTIMIZER_TAKE_SHARD. -/
def execOptimizerTakeShard (engine m slot : Nat) (s : State) : Host.Outcome State Fault Refusal :=
  whenUnits s (okTwo engine && okTwo m && okSlot slot) (s.takeShard engine (slotKey m slot))
/-- GATHER_BLOCK_RECEIVE: a frame with another kind of block is BLOCK's. -/
def execGatherBlockReceive (p : Nat) (f : Frame) (s : State) : Host.Outcome State Fault Refusal :=
  whenUnits s (okPort p) (if (parseHdr f.ext).kind = 2 then s.arrive p f 1 fun s => s.gatherBlock p f else s)

end Sys2Proof.Machine
end

