-- ==== Sys2Proof/Machine/Warden.lean ====
section
/-! DEFINITION. Heartbeats, suspicions and the warden (R347 to R350), REMAP (R349) and what it begins (R353). -/

namespace Sys2Proof.Machine

/-! The fabric's modules. -/

/-- Every address within the extents. -/
def State.addresses (s : State) : List Nat :=
  (List.range (s.extent 3)).flatMap fun w => (List.range (s.extent 2)).flatMap fun z =>
    (List.range (s.extent 1)).flatMap fun y => (List.range (s.extent 0)).map fun x =>
      x + 16 * y + 256 * z + 4096 * w

/-- Whether the remap table gives a module a logical coordinate. -/
def State.remapTarget (s : State) (a : Nat) : Bool :=
  (List.range 64).any fun r =>
    s.flag (Reg.fabRemap r) Fld.fabRemapValid && s.fld (Reg.fabRemap r) Fld.fabRemapPhysical = a

/-- The modules of jobs: the one that holds each logical coordinate (R320, R352). -/
def State.jobModules (s : State) : List Nat := (s.addresses.filter fun a => !s.spareModule a).map s.physOf

/-- Whether this module has a logical coordinate (Table 11.12). -/
def State.mapped (s : State) : Bool := s.flag Reg.fabSelf Fld.fabSelfLogicalValid

/-- The ring neighbours of the module with logical coordinate `l`: ±1 in each dimension whose extent exceeds 1 (R347). -/
def State.neighboursOf (s : State) (l : Nat) : List Nat :=
  (((List.range 4).filter fun d => decide (1 < s.extent d)).flatMap fun d =>
    [s.physOf (s.besides l d true), s.physOf (s.besides l d false)]).eraseDups

/-- This module's ring neighbours: an unmapped spare has none (DEDUCED, log 75). -/
def State.neighbours (s : State) : List Nat := if s.mapped then s.neighboursOf s.selfLogical else []

/-- Hops of a route without faults between two modules (R325). -/
def State.hopsBetween (s : State) (a b : Nat) : Nat :=
  (List.range 4).foldl (fun h d =>
    let n := s.extent d
    let plus := (coordOf b d + n - coordOf a d % n) % n
    h + min plus (n - plus)) 0

/-- TIMEOUT_NS. -/
def State.hbTimeout (s : State) : Nat := s.fld Reg.netHb Fld.netHbTimeoutNs
/-- The primary warden. -/
def State.primary (s : State) : Nat := s.fld Reg.netWarden Fld.netWardenPrimary
/-- The backup warden. -/
def State.backup (s : State) : Nat := s.fld Reg.netWarden Fld.netWardenBackup
/-- Whether this module is one of the wardens. -/
def State.isWarden (s : State) : Bool := s.self = s.primary || s.self = s.backup

/-- The module has come to READY and is not lost: heartbeats and warden duties have begun (R380). -/
def State.ready (s : State) : Bool := s.alive && s.phase = 6

/-- NET.STATUS.WARDEN (Table 12.10). -/
def State.showWarden (s : State) : State := s.setFld Reg.netStatus Fld.netStatusWarden (b2n (s.self = s.primary))

/-- The fabric act's step, that a HEARTBEAT of most kinds carries (Table 12.3). -/
def State.fabricStep (s : State) : Nat := s.actStep s.fabricAct

/-! Stopping the fabric act. -/

/-- Stops every queue of an act at once (R349, R350). -/
def State.stopAct (s : State) (a : Nat) : State :=
  s.each (s.createdQueues.filter fun q => s.ownsQueue a q && s.qState q ≠ 1) fun q s =>
    let s := s.modQueue q fun k => { k with control := none }
    let s := (s.setFld (Reg.qmQState q) Fld.qmQStateBusy 0).setQState q 1
    match (s.queue q).bound with
    | some (n, x) => s.modCtx n x fun c => { c with state := .halted, reload := false }
    | none => s

/-- The FAULT event of a lost peer (R349, R350): its address in the payload (log 8). -/
def State.peerLost (s : State) (a subject : Nat) : State :=
  s.broadcast [a] (plainRec 0x0C (openSeverity 0x0C 0x51) 0x51 0 s.now (openPayload 0x0C 0x51 subject s.now))

/-- Both wardens are taken as lost: the fabric act stops, one PEER_LOST event goes out for each, and HALT to the
ring neighbours (R350). -/
def State.wardensLost (s : State) : State :=
  if s.fabricHalted then s
  else
    let a := s.fabricAct
    let s := State.stopAct { s with fabricHalted := true, suspicions := [] } a
    let s := s.each [s.primary, s.backup] fun w s => s.peerLost a w
    s.each s.neighbours fun n s => s.heartbeat n 9 s.primary s.fabricStep 0

/-! REMAP. -/

/-- The bytes of a REMAP: the spec names what it holds, not where (DESIGN CHOICE, log 76). -/
def remapBytes (gen act step primary backup : Nat) (entries : List (Nat × Nat)) : Bytes :=
  leBytes 4 gen ++ leBytes 1 act ++ List.replicate 3 0 ++ leBytes 4 step ++ leBytes 2 primary ++ leBytes 2 backup ++
    entries.flatMap fun e => leBytes 2 e.1 ++ leBytes 2 e.2

/-- The entries of a REMAP. -/
def remapEntries (bs : Bytes) : List (Nat × Nat) :=
  (List.range ((bs.length - 16) / 4)).map fun i => (fieldAt bs (16 + 4 * i) 2, fieldAt bs (18 + 4 * i) 2)

/-- Writes one entry of the remap table: over the logical coordinate's own, or into a free one (R320). -/
def State.putRemap (s : State) (l p : Nat) : State :=
  let own := (List.range 64).find? fun r =>
    s.flag (Reg.fabRemap r) Fld.fabRemapValid && s.fld (Reg.fabRemap r) Fld.fabRemapLogical = l
  match own.or ((List.range 64).find? fun r => s.flag (Reg.fabRemap r) Fld.fabRemapValid = false) with
  | some r =>
    let s := s.setReg (Reg.fabRemap r) (l % 65536 + p % 65536 * 2 ^ 16 + 2 ^ 32)
    if p = s.self then
      (s.setFld Reg.fabSelf Fld.fabSelfLogical l).setFld Reg.fabSelf Fld.fabSelfLogicalValid 1
    else s
  | none => s

/-- Abandons the buckets of an act in flight, with the frames held for them; their tags may be handed over again
(R353; DEDUCED, log 77). -/
def State.dropBuckets (s : State) (a : Nat) : State :=
  let mine := s.buckets.filter fun p => p.2.act = a
  let s := s.each mine fun p s => if p.2.state = .held then s.freeAcd p.2.core p.2.acd else s
  let tags := mine.map (·.2.tag)
  { s with buckets := s.buckets.filter fun p => p.2.act ≠ a
           handed := s.handed.filter fun p => p.1 / 65536 ≠ a
           reduceMark := s.reduceMark.filter fun m => m.1 ≠ a
           optMark := s.optMark.filter fun m => m.1 ≠ a
           gatherMark := s.gatherMark.filter fun m => m.1 ≠ a
           heldFrames := s.heldFrames.filter fun h =>
             !(h.frame.typ.toNat = 1 && tags.contains (fieldAt h.frame.ext 10 2)) }

/-- A rollback begins (R353): every command and sample queue of the act resets; on a replacement, or where a stack was
lost, the queues of sideshow acts too, and the state comes from the buddy's copy, so the local snapshots are given up. -/
def State.beginRollback (s : State) (a step : Nat) (replaced : Bool) : State :=
  let s := if replaced then { s with snaps := [] } else s
  let s := { s with rollback := some { step := step, act := a, replaced := replaced, restored := false, complete := false, todo := [] }
                    restoredBy := [] }
  let s := (s.setFld Reg.netRollback Fld.netRollbackStep step).addOpen Reg.netRollback Fld.netRollbackCount 1
  let s := s.each (s.createdQueues.filter fun q => s.ownsQueue a q && (s.qType q = 1 || s.qType q = 2)) fun q s =>
    s.forceReset q
  let s := if replaced then s.each (s.enabledActs.filter s.isSideshow) fun b s => s.flr b else s
  s.dropBuckets a

/-! The buddy's copy for a replacement. -/

/-- The module one step along BUDDY_AXIS from a logical coordinate, in the plus or the minus direction (R351). -/
def State.buddyOf (s : State) (l : Nat) (plus : Bool) : Nat :=
  s.physOf (s.besides l (s.fld Reg.netCkpt Fld.netCkptBuddyAxis) plus)

/-- The extension of a CHECKPOINT frame: the spec names its fields and their 20 bytes in all (R351; log 81). -/
def ckptExt (tag step part off total : Nat) : Bytes :=
  leBytes 2 tag ++ leBytes 2 part ++ leBytes 4 step ++ leBytes 6 off ++ leBytes 6 total ++ List.replicate 12 0

/-- Sends a slice to a module in CHECKPOINT frames of up to 4,096 bytes; an empty part goes as one empty frame. -/
def State.sendSlice (s : State) (dst step : Nat) (l : SavedSlice) : State :=
  s.each (indexed 0 l.parts) fun p s =>
    s.each (List.range (max 1 ((p.2.length + 4095) / 4096))) fun i s =>
      s.sendFrame (s.newFrame dst 3 2 (ckptExt l.tag step p.1 (4096 * i) p.2.length) ((p.2.drop (4096 * i)).take 4096))

/-- The copies of a step. -/
def copyOf (m : List (Nat × Snapshot)) (step : Nat) : Option Snapshot := (m.find? fun p => p.2.step = step).map (·.2)

/-- Where the parts of a slice lie in a slot of a pair of areas, near and far from area `i`, with their bytes: moments in the far
one, the rest in the near one. Where in an area a part lies is not stated (free values, log 79). -/
def State.areaRuns (s : State) (i slot : Nat) (l : SavedSlice) : List (Space × Nat × Bytes) :=
  ((indexed 0 l.parts).filter fun p => p.2 ≠ []).map fun p =>
    let k := Reg.netArea (if p.1 = 1 then i + 1 else i)
    let sp := s.fld k Fld.netAreaSpace
    let a := s.fld k Fld.netAreaAddr + (Config.slicePlace slot l.tag p.1).toNat
    (if sp = 0 then .near else .far (sp - 4), min a ((if sp = 0 then nearSize else 2 ^ 43) - p.2.length), p.2)

/-- The far requests that read a slice back from a slot of a pair of areas (R191). -/
def State.readAreas (s : State) (i slot : Nat) (l : SavedSlice) : State :=
  s.each (s.areaRuns i slot l) fun r s => s.askFar r.1 r.2.1 r.2.2.length false .agent

/-- The slot of the copies of a step. -/
def slotOf (m : List (Nat × Snapshot)) (step : Nat) : Nat := ((m.find? fun p => p.2.step = step).map (·.1)).getD 0

/-- The buddy of a lost module sends its replacement the copy it keeps of the step (R353). -/
def State.lendCopies (s : State) (step : Nat) (entries : List (Nat × Nat)) : State :=
  s.each entries fun e s =>
    if s.mapped ∧ e.2 ≠ s.self ∧ s.buddyOf e.1 true = s.self then
      match copyOf s.buddyCopies step with
      | some c => s.each c.slices fun l s => (s.readAreas 2 (slotOf s.buddyCopies step) l).sendSlice e.2 step l
      | none => s
    else s

/-! The commit of a checkpoint. -/

/-- CKPT_COMMIT: the step is committed here (R352). -/
def State.ckptCommitted (s : State) (step : Nat) : State :=
  let last := s.fld Reg.netCkpt Fld.netCkptLastStep
  if last = 0xFFFFFFFF ∨ last < step then
    let s := s.setFld Reg.netCkpt Fld.netCkptLastStep step
    match s.ckpt with
    | some c => if c.step = step then { s with ckpt := none } else s
    | none => s
  else s

/-- The warden commits a step once it holds CKPT_DONE from every module of the job (R352). -/
def State.tryCommitCkpt (s : State) (step : Nat) : State :=
  if s.jobModules.all fun a => s.wardenDone.contains (step, a) then
    let s := { s with wardenDone := s.wardenDone.filter fun p => p.1 ≠ step }
    let s := s.each (s.addresses.filter fun a => a ≠ s.self && !s.lostModules.contains a) fun a s =>
      s.heartbeat a 6 s.self step 0
    s.ckptCommitted step
  else s

/-- CKPT_DONE at the warden. -/
def State.ckptDoneFrom (s : State) (src step : Nat) : State :=
  State.tryCommitCkpt
    { s with wardenDone := if s.wardenDone.contains (step, src) then s.wardenDone else s.wardenDone ++ [(step, src)] } step

/-- CKPT_DONE of this module goes to the warden; the warden notes its own (R352). -/
def State.tellDone (s : State) (step : Nat) : State :=
  if s.self = s.primary then s.ckptDoneFrom s.self step else s.heartbeat s.primary 5 s.self step 0

/-- Applies a REMAP: entries, wardens, PEER_LOST, and the rollback, or the act's end when no entry came (R349, R350,
R353). A checkpoint in progress goes on, and its CKPT_DONE goes to the new warden. -/
def State.applyRemap (s : State) (bs : Bytes) : State :=
  let act := fieldAt bs 4 1 % 16
  let step := fieldAt bs 8 4
  let entries := remapEntries bs
  let subject := ((entries.map fun e => s.physOf e.1).head?).getD 0xFFFF
  let gone := (entries.filter fun e => s.physOf e.1 ≠ e.2).map fun e => s.physOf e.1
  let mine := entries.any fun e => e.2 = s.self
  let s := { s with remapGen := fieldAt bs 0 4, suspicions := [], probes := s.probes.filter fun w => w.stage = 0 && !gone.contains w.subject
                    lostModules := s.lostModules ++ gone.filter fun p => !s.lostModules.contains p && p ≠ s.self
                    wardenDone := [] }
  let s := s.each entries fun e s => s.putRemap e.1 e.2
  let s := (s.setFld Reg.netWarden Fld.netWardenPrimary (fieldAt bs 12 2)).setFld Reg.netWarden Fld.netWardenBackup
    (fieldAt bs 14 2)
  let s := s.showWarden
  let s := { s with peers := s.peers.filter fun p => s.neighbours.contains p.addr }
  let s := s.peerLost act subject
  if entries = [] ∨ step = 0xFFFFFFFF then State.stopAct { s with fabricHalted := true } act
  else
    let s := (s.beginRollback act step (mine || s.stackLost.isSome)).lendCopies step entries
    match s.ckpt with
    | some c => if c.doneSent then s.tellDone c.step else s
    | none => s

/-! The warden. -/

/-- The spare that replaces a lost module: idle, of its grade, fewest hops away, the lowest address of those (R349). -/
def State.chooseSpare (s : State) (subject : Nat) : Option Nat :=
  (s.addresses.filter fun a =>
      s.spareModule a && !s.remapTarget a && !s.lostModules.contains a && a ≠ subject &&
        Config.moduleGrade (BitVec.ofNat 16 a) = Config.moduleGrade (BitVec.ofNat 16 subject)).foldl
    (fun best a => match best with
      | none => some a
      | some b =>
        let x := (s.hopsBetween a subject, a)
        let y := (s.hopsBetween b subject, b)
        if x.1 < y.1 ∨ (x.1 = y.1 ∧ x.2 < y.2) then some a else best) none

/-- The module that becomes backup: neither lost nor a spare, the lowest address but the primary's (R350). -/
def State.chooseBackup (s : State) (primary : Nat) : Option Nat :=
  (s.addresses.filter fun a =>
    a ≠ primary && !s.lostModules.contains a && (!s.spareModule a || s.remapTarget a)).foldl
      (fun best a => match best with | none => some a | some b => some (min a b)) none

/-- The warden declares a module lost: a spare takes its place, the wardens are named anew, and REMAP goes to every
module, this one included (R349, R350). An unmapped spare that is lost needs no replacement (DEDUCED, log 78). -/
def State.declareLost (s : State) (subject : Nat) : State :=
  if s.lostModules.contains subject ∨ subject = s.self then s
  else
    let s := { s with lostModules := s.lostModules ++ [subject], probes := s.probes.filter fun w => w.subject ≠ subject }
    if s.spareModule subject && !s.remapTarget subject then s
    else
      let primary := if subject = s.primary then s.self else s.primary
      let backup := if subject = s.primary ∨ subject = s.backup then (s.chooseBackup primary).getD s.backup else s.backup
      let spare := s.chooseSpare subject
      let entries := match spare with | some p => [((s.logicalOf subject).getD subject, p)] | none => []
      let step := if spare.isNone then 0xFFFFFFFF else s.fld Reg.netCkpt Fld.netCkptLastStep
      let bs := remapBytes ((s.remapGen + 1) % 2 ^ 32) s.fabricAct step primary backup entries
      let s := s.each (s.addresses.filter fun a => a ≠ s.self && !s.lostModules.contains a) fun a s =>
        s.sendFrame (s.newFrame a 0xC 3 [] bs)
      s.applyRemap bs

/-- The warden probes a subject, unless it is doing so or has declared it lost (R348). -/
def State.probeSubject (s : State) (subject : Nat) : State :=
  if s.probes.any (fun w => w.subject = subject && w.stage = 0) ∨ s.lostModules.contains subject then s
  else
    let w : Watch := { subject := subject, since := s.now, stage := 0 }
    let s := { s with probes := s.probes ++ [w] }
    s.heartbeat subject 2 subject s.fabricStep 0

/-- Sends SUSPECT to a warden; a warden that suspects takes its own suspicion up at once (R348). -/
def State.raiseSuspect (s : State) (warden subject : Nat) : State :=
  if warden = s.self then s.probeSubject subject else s.heartbeat warden 1 subject s.fabricStep 0

/-- Probes both wardens, unless this module is one of them or is already doing so (R350). -/
def State.checkWardens (s : State) : State :=
  if s.isWarden || s.fabricHalted || s.probes.any (fun w => w.stage = 1) then s
  else
    s.each [s.primary, s.backup].eraseDups fun w s =>
      let v : Watch := { subject := w, since := s.now, stage := 1 }
      State.heartbeat { s with probes := s.probes ++ [v] } w 2 w s.fabricStep 0

/-! Steps. -/

/-- When the next BEATs are due: PERIOD_NS after the last, at once where none has gone out (R347). -/
def State.beatDue (s : State) : Bool :=
  match s.beatAt with
  | some t => decide (t + s.fld Reg.netHb Fld.netHbPeriodNs ≤ s.now)
  | none => true

/-- HEARTBEAT_SEND: every PERIOD_NS a BEAT to each ring neighbour (R347). -/
def State.beatOut (s : State) : State :=
  if s.ready && s.beatDue then
    let s := { s with beatAt := some s.now }
    s.each s.neighbours fun n s => s.heartbeat n 0 s.self s.fabricStep 0
  else s

/-- A HEARTBEAT of a kind arrives: after the checks of every frame and under the condition of Table 11.14, its effect. One of a
kind that the table does not list meets no condition and is dropped (R322). -/
def State.beatFrame (s : State) (p : Nat) (f : Frame) (kind : Nat) (cond : State → Bool) (eff : State → State) : State :=
  let k := fieldAt f.payload 0 1
  if s.alive ∧ (k = kind ∨ 9 < k) then s.arrive p f 9 fun s => s.onlyIf p (decide (k ≤ 9) && cond s) eff else s

/-- SUBJECT of a HEARTBEAT. -/
def hbSubject (f : Frame) : Nat := fieldAt f.payload 2 2
/-- STEP of a HEARTBEAT. -/
def hbStep (f : Frame) : Nat := fieldAt f.payload 4 4
/-- TAG of a HEARTBEAT. -/
def hbTag (f : Frame) : Nat := fieldAt f.payload 16 2

/-- HEARTBEAT_TIMEOUT: past the deadline the neighbour is suspected (R348, R200). -/
def State.beatMissed (s : State) (nb : Nat) : State :=
  match s.peers.find? fun p => p.addr = nb with
  | some p =>
    if s.ready ∧ p.lastBeat + s.hbTimeout < s.now ∧ (s.suspicions.any fun w => w.subject = nb) = false then
      let w : Watch := { subject := nb, since := s.now, stage := 1 }
      let s := { s with suspicions := s.suspicions ++ [w] }
      s.raiseSuspect (s.wardenOf nb) nb
    else s
  | none => s

/-- A BEAT re-arms its neighbour's deadline, and a suspicion of it is cleared. One stamped past the deadline comes after the
timeout (R200, R347, R348). -/
def State.beatIn (s : State) (src : Nat) : State :=
  let s := s.beatMissed src
  { s with peers := s.peers.filter (fun p => p.addr ≠ src) ++ [{ addr := src, lastBeat := s.now }]
           suspicions := s.suspicions.filter fun w => w.subject ≠ src }

/-- The probe this module waits on, on time (R200). -/
def State.waitsProbe (s : State) (a : Nat) : Bool :=
  s.probes.any fun w => w.subject = a && decide (s.now ≤ w.since + s.hbTimeout)

/-- A PROBE_REPLY clears the suspicion of the module, or the check of the wardens (R348, R350). -/
def State.replied (s : State) (a : Nat) : State :=
  let check := s.probes.any fun w => w.subject = a && w.stage = 1
  { s with probes := s.probes.filter fun w => w.subject ≠ a && !(check && w.stage = 1)
           suspicions := s.suspicions.filter fun w => w.subject ≠ a }

/-- PROBE_TIMEOUT: the warden declares the subject lost; a check that neither warden answered takes both as lost (R348,
R350). -/
def State.probeMissed (s : State) (a : Nat) : State :=
  match s.probes.find? fun w => w.subject = a && decide (w.since + s.hbTimeout < s.now) with
  | some w =>
    if s.ready then
      let s := { s with probes := s.probes.erase w }
      if w.stage = 0 then s.declareLost a
      else if s.probes.any fun v => v.stage = 1 then s
      else s.wardensLost
    else s
  | none => s

/-- SUSPECT_ESCALATE_TIMEOUT: after 4 × TIMEOUT_NS a suspicion goes to the other warden; after as long again both
wardens are probed (R350). -/
def State.escalate (s : State) (a : Nat) : State :=
  match s.suspicions.find? fun w => w.subject = a with
  | some w =>
    if s.ready ∧ w.since + 4 * s.hbTimeout < s.now then
      if w.stage = 1 then
        let other := if s.wardenOf a = s.primary then s.backup else s.primary
        State.raiseSuspect { s with suspicions := s.suspicions.map fun v => if v = w then { v with since := s.now, stage := 2 } else v }
          other a
      else State.checkWardens { s with suspicions := s.suspicions.erase w }
    else s
  | none => s

/-- Whether a REMAP may be applied: from the warden, and newer (R323). A backup that has declared the primary lost
names itself primary. -/
def State.remapOk (s : State) (f : Frame) : Bool :=
  let src := f.src.toNat
  decide (s.remapGen < fieldAt f.payload 0 4) &&
    (src = s.primary || (src = s.backup && fieldAt f.payload 12 2 = src))

/-! Meanings. -/

/-- HEARTBEAT_SEND. -/
def execHeartbeatSend (s : State) : Host.Outcome State Fault Refusal := whenUnits s true s.beatOut
/-- BEAT: from a ring neighbour (R323). -/
def execBeat (p : Nat) (f : Frame) (s : State) : Host.Outcome State Fault Refusal :=
  whenUnits s (okPort p) (s.beatFrame p f 0 (fun s => s.neighbours.contains f.src.toNat) fun s => s.beatIn f.src.toNat)
/-- HEARTBEAT_TIMEOUT. -/
def execHeartbeatTimeout (nb : Nat) (s : State) : Host.Outcome State Fault Refusal :=
  whenUnits s true (s.beatMissed nb)
/-- SUSPECT: to a warden, from a ring neighbour of its SUBJECT (R323). -/
def execSuspect (p : Nat) (f : Frame) (s : State) : Host.Outcome State Fault Refusal :=
  whenUnits s (okPort p) (s.beatFrame p f 1
    (fun s => s.isWarden && (s.logicalOf (hbSubject f)).any fun l => (s.neighboursOf l).contains f.src.toNat)
    fun s => s.probeSubject (hbSubject f))
/-- PROBE: from a warden, or to one by a module that checks (R323). -/
def execProbe (p : Nat) (f : Frame) (s : State) : Host.Outcome State Fault Refusal :=
  whenUnits s (okPort p) (s.beatFrame p f 2
    (fun s => s.isWarden || f.src.toNat = s.primary || f.src.toNat = s.backup)
    fun s => s.heartbeat f.src.toNat 3 s.self s.fabricStep 0)
/-- PROBE_REPLY: to a PROBE that still waits (R323). -/
def execProbeReply (p : Nat) (f : Frame) (s : State) : Host.Outcome State Fault Refusal :=
  whenUnits s (okPort p) (s.beatFrame p f 3 (fun s => s.waitsProbe f.src.toNat) fun s => s.replied f.src.toNat)
/-- PROBE_TIMEOUT. -/
def execProbeTimeout (subject : Nat) (s : State) : Host.Outcome State Fault Refusal :=
  whenUnits s true (s.probeMissed subject)
/-- LOST: to the warden, from the SUBJECT itself (R323). -/
def execLost (p : Nat) (f : Frame) (s : State) : Host.Outcome State Fault Refusal :=
  whenUnits s (okPort p) (s.beatFrame p f 4
    (fun s => s.wardenOf (hbSubject f) = s.self && hbSubject f = f.src.toNat) fun s => s.declareLost f.src.toNat)
/-- SUSPECT_ESCALATE_TIMEOUT. -/
def execSuspectEscalateTimeout (subject : Nat) (s : State) : Host.Outcome State Fault Refusal :=
  whenUnits s true (s.escalate subject)
/-- HALT: from a ring neighbour (R323, R350). -/
def execHalt (p : Nat) (f : Frame) (s : State) : Host.Outcome State Fault Refusal :=
  whenUnits s (okPort p) (s.beatFrame p f 9 (fun s => s.neighbours.contains f.src.toNat) State.checkWardens)

end Sys2Proof.Machine
end

