-- ==== Sys2Proof/Machine/Checkpoint.lean ====
section
/-! DEFINITION. Buddy checkpoints (R351, R352), and the restore and regather of a rollback (R353). The copies of the
state are kept as what they hold, and not as bytes of the snapshot and buddy areas, whose layout the spec does not give
(DESIGN CHOICE, log 79). -/

namespace Sys2Proof.Machine

/-! What is saved. -/

/-- The tags of the fabric act whose OPT is not 0, ascending (R351). -/
def State.ckptTags (s : State) : List Nat :=
  let base := s.fld (Reg.carTable s.fabricAct) Fld.carTableAddr
  s.near.filterMap fun c =>
    if base ≤ c.1 ∧ c.1 < base + 64 * 65536 ∧ (c.1 - base) % 64 = 49 ∧ 64 ≤ c.2.toNat then some ((c.1 - base) / 64)
    else none

/-- The moment areas of both halves of an own shard: space, address, length (R296). -/
def State.momAreas (s : State) (b : Bucket) : List (Space × Nat × Nat) :=
  [0, 1].filterMap fun h =>
    let p := s.halfSpan b h
    if p.1 = p.2 then none else some (b.momSpace h, b.mom h, (momPlanes (p.2 - p.1)).2)

/-- The author regions (R351). -/
def State.ckptRegions (s : State) : List (Nat × Nat) :=
  (List.range 8).filterMap fun j =>
    let n := s.fld (Reg.netCkptRegion j) Fld.netCkptRegionSizeMib
    if n = 0 then none else some (s.fld (Reg.netCkptRegion j) Fld.netCkptRegionAddr, n * 2 ^ 20)

/-- The parts of a slice: master, moments, residual, history with the act's seed before it, and with the lowest tag the regions
(R351; log 80). -/
def State.sliceParts (s : State) (b : Bucket) : List Bytes :=
  let o := s.ownShard b
  let hist := match s.history.find? fun h => h.1 = tagKey b.act b.tag with
    | some (_, step, amax) => leBytes 4 step ++ leBytes 4 amax
    | none => []
  [ s.readMem .near b.master (2 * (o.2 - o.1)),
    (s.momAreas b).flatMap fun m => s.readMem m.1 m.2.1 m.2.2,
    if b.mode = 0 then [] else s.readMem .near b.resid (2 * b.elems),
    leBytes 8 (s.reg (Reg.qmActSeed b.act)) ++ hist,
    if s.ckptTags.head? = some b.tag then s.ckptRegions.flatMap fun r => s.readMem .near r.1 r.2 else [] ]

/-- What a checkpoint saves of a tag; of one that has had no update, whose length nothing has given, no bytes but the seed (log 80). -/
def State.sliceOf (s : State) (tag : Nat) : SavedSlice :=
  match s.lastUpdate tag with
  | some b => { tag := tag, parts := s.sliceParts b, shape := some b }
  | none => { tag := tag, parts := [[], [], [], leBytes 8 (s.reg (Reg.qmActSeed s.fabricAct)), []], shape := none }

/-- Puts a slice into a slot of copies, with the seed it carries; a slot of another step is overwritten. -/
def putSlice (m : List (Nat × Snapshot)) (slot step : Nat) (l : SavedSlice) : List (Nat × Snapshot) :=
  let old := match Sparse.get? m slot with
    | some n => if n.step = step then n.slices else []
    | none => []
  Sparse.put m slot { step := step, slices := old.filter (fun x => x.tag ≠ l.tag) ++ [l],
                      seed := fieldAt ((l.parts[3]?).getD []) 0 8 }

/-- Writes a slice into a slot of a pair of areas (R351). -/
def State.writeAreas (s : State) (i slot : Nat) (l : SavedSlice) : State :=
  s.each (s.areaRuns i slot l) fun r s => (s.writeMem r.1 r.2.1 r.2.2).askFar r.1 r.2.1 r.2.2.length true .agent

/-- Keeps a slice in the local snapshot, in slot `slot` (R351). -/
def State.keepSnap (s : State) (slot step : Nat) (l : SavedSlice) : State :=
  State.writeAreas { s with snaps := putSlice s.snaps slot step l } 0 slot l

/-- The slot that the copies of a step go to: its own, or the one that does not hold the committed step (R351). -/
def State.buddySlot (s : State) (m : List (Nat × Snapshot)) (step : Nat) : Nat :=
  match m.find? fun p => p.2.step = step with
  | some p => p.1
  | none => match Sparse.get? m 0 with
    | some n => if n.step = s.fld Reg.netCkpt Fld.netCkptLastStep then 1 else 0
    | none => 0

/-- Keeps a slice of the module whose buddy this one is (R351). -/
def State.keepBuddy (s : State) (step : Nat) (l : SavedSlice) : State :=
  let slot := s.buddySlot s.buddyCopies step
  State.writeAreas { s with buddyCopies := putSlice s.buddyCopies slot step l } 2 slot l

/-! Slices. -/

/-- Changes the slices of the checkpoint in progress. -/
def State.modSlice (s : State) (tag : Nat) (f : Slice → Slice) : State :=
  { s with ckpt := s.ckpt.map fun c => { c with slices := c.slices.map fun l => if l.tag = tag then f l else l } }

/-- CKPT_DONE goes to the warden once the buddy holds every slice of the step (R352). -/
def State.ckptCheck (s : State) : State :=
  match s.ckpt with
  | some c =>
    if !c.doneSent && s.ckptTags.all fun t => c.slices.any fun l => l.tag = t && l.acked then
      let s := { s with ckpt := some { c with doneSent := true } }
      s.tellDone c.step
    else s
  | none => s

/-- Whether a tag's state is that of step `k`: its update of the step has committed, or the act has gone past the step and no bucket
of the tag up to it is in flight (R351, R352; DEDUCED, log 82). -/
def State.tagStands (s : State) (tag k : Nat) : Bool :=
  let past := decide (k < s.fabricStep) &&
    s.buckets.all fun p => p.2.act ≠ s.fabricAct || p.2.tag ≠ tag || decide (k < p.2.step)
  match s.lastUpdate tag with
  | some b => b.step = k || (decide (b.step < k) && past)
  | none => past

/-- Reads a slice that has been asked for into the snapshot and frames it for the buddy, once its tag's state is that of the step
(R351, R352). -/
def State.takeSlice (s : State) (tag : Nat) : State :=
  match s.ckpt with
  | some c =>
    if s.tagStands tag c.step && c.slices.any fun l => l.tag = tag && !l.snapped then
      let l := s.sliceOf tag
      let s := match l.shape with
        | some b => s.each (s.momAreas b) fun m s => s.askFar m.1 m.2.1 m.2.2 false .agent
        | none => s
      let s := (s.keepSnap c.slot c.step l).modSlice tag fun l => { l with snapped := true }
      let buddy := s.buddyOf s.selfLogical true
      if buddy = s.self then ((s.keepBuddy c.step l).modSlice tag fun l => { l with acked := true }).ckptCheck
      else s.sendSlice buddy c.step l
    else s
  | none => s

/-- Reads the slices that have been asked for, as far as their tags' states stand. -/
def State.takeSlices (s : State) : State :=
  match s.ckpt with
  | some c => s.each (c.slices.map (·.tag)) fun t s => s.takeSlice t
  | none => s

/-- The step that a checkpoint opens at: a multiple of STEPS that some tag's update stands at, or the last one that the act has
come to, and that no checkpoint has been opened for (R351; DEDUCED, log 82). -/
def State.ckptStep (s : State) : Option Nat :=
  let n := s.fld Reg.netCkpt Fld.netCkptSteps
  let ok (k : Nat) : Bool := n ≠ 0 && k % n = 0 && (match s.ckptLast with | some p => p.1 ≠ k | none => true)
  (((s.ckptTags.filterMap s.lastUpdate).map (·.step)).find? ok).or (some (s.fabricStep / n * n) |>.filter ok)

/-- Opens the next checkpoint in the other slot, when none is in progress (R351, R352). -/
def State.openCkpt (s : State) : State :=
  match s.ckpt, s.ckptStep with
  | none, some k =>
    let slot := match s.ckptLast with | some p => 1 - p.2 | none => 0
    { s with ckpt := some { step := k, slices := [], slot := slot, doneSent := false }, ckptLast := some (k, slot) }
  | _, _ => s

/-- A CHECKPOINT cue: the slice that ARG names, or the lowest unsent one (R351). -/
def State.ckptCue (s : State) (arg : Nat) : State :=
  if s.ready = false ∨ s.fld Reg.netCkpt Fld.netCkptSteps = 0 then s
  else
    let s := s.takeSlices.openCkpt
    match s.ckpt with
    | none => s
    | some c =>
      let unsent := s.ckptTags.filter fun t => c.slices.all fun l => l.tag ≠ t
      match (if arg = 0xFFFF then unsent.head? else unsent.find? (· = arg)) with
      | some t =>
        let l : Slice := { tag := t, snapped := false, acked := false }
        State.takeSlice { s with ckpt := some { c with slices := c.slices ++ [l] } } t
      | none => s

/-! Frames. -/

/-- Whether the pieces of a part cover its length. -/
def PartIn.whole (p : PartIn) : Bool :=
  (p.got.map (·.2.length)).foldl (· + ·) 0 = p.total

/-- The bytes of a whole part. -/
def PartIn.bytes (p : PartIn) : Bytes :=
  ((List.range ((p.total + 4095) / 4096)).filterMap fun i => (p.got.find? fun g => g.1 = 4096 * i).map (·.2)).flatten

/-- The module whose copies this one keeps, and its own buddy while it restores from it (R322, R351, R353). -/
def State.ckptFrom (s : State) (src : Nat) : Option Bool :=
  if (match s.rollback with | some r => r.replaced | none => false) && src = s.buddyOf s.selfLogical true then some false
  else if s.mapped && src = s.buddyOf s.selfLogical false && src ≠ s.self then some true
  else none

/-- A CHECKPOINT frame: its piece is kept; a slice that has fully arrived is stored and acknowledged (R351, R352). -/
def State.ckptFrame (s : State) (p : Nat) (f : Frame) : State :=
  match s.ckptFrom f.src.toNat with
  | none => s.addrDrop p
  | some forBuddy =>
    let tag := fieldAt f.ext 0 2
    let part := fieldAt f.ext 2 2
    let step := fieldAt f.ext 4 4
    let off := fieldAt f.ext 8 6
    let mine (x : PartIn) : Bool := x.step = step && x.tag = tag
    let old := (s.partsIn.find? fun x => mine x && x.part = part).getD
      { step := step, tag := tag, part := part, total := fieldAt f.ext 14 6, got := [] }
    let new := { old with got := old.got.filter (fun g => g.1 ≠ off) ++ [(off, f.payload)] }
    let parts := s.partsIn.filter (fun x => !(mine x && x.part = part)) ++ [new]
    let here := (List.range 5).filterMap fun i => parts.find? fun x => mine x && x.part = i && x.whole
    if here.length < 5 then { s with partsIn := parts }
    else
      let l : SavedSlice := { tag := tag, parts := here.map PartIn.bytes, shape := none }
      let s := { s with partsIn := parts.filter fun x => !mine x }
      if forBuddy then (s.keepBuddy step l).heartbeat f.src.toNat 7 s.self step tag
      else s.keepSnap (s.buddySlot s.snaps step) step l

/-- SLICE_ACK: the slice is acknowledged (R352). -/
def State.sliceAcked (s : State) (step tag : Nat) : State :=
  match s.ckpt with
  | some c => if c.step = step then (s.modSlice tag fun l => { l with acked := l.acked || l.snapped }).ckptCheck else s
  | none => s

/-! The commit of an update. -/

/-- Keeps what a checkpoint needs of an update: everything but the exchange's own data. -/
def State.noteUpdate (s : State) (b : Bucket) : State :=
  let kept : Bucket :=
      { b with own := [], scanned := false, blocks := [], sum := [], votes := [], taken := [], computing := [], halves := [], farBad := [], stored := [],
               arrived := [], aux := [], attempts := [], asked := [], sent := [], accepted := [], progressAt := none,
               conds := [], poison := none, origin := none, bumps := 0, sumAt := none }
  { s with updates := Sparse.put s.updates (tagKey b.act b.tag) kept }

/-- OPTIMIZER_COMMIT with the Safety Net's part: it waits for a slice, and lets a slice that waits for it be read. -/
def State.commitStep (s : State) (key : Nat) : State :=
  s.onBucket key fun b s =>
    if s.waitsSlice b then s
    else
      let t := s.commit key
      let done : Bool := match Sparse.get? t.buckets key with
        | some c => c.state = .gather
        | none => true
      if b.state = .update && done then (t.noteUpdate b).takeSlices else t

/-! Rollback. -/

/-- A bucket without an exchange for the gather of a restored master (R353): as the saved update left it, or from the
table entry where only the bytes came from the buddy, with the ring's shards taken to be of equal size (log 83). -/
def State.restoreShape (s : State) (r : Rollback) (l : SavedSlice) : Bucket :=
  match l.shape with
  | some b => { b with step := r.step, state := .gather, regather := true }
  | none =>
    let axis := s.fld (Reg.carBktCtl r.act) Fld.carBktCtlAxis
    { act := r.act, tag := l.tag, step := r.step, state := .gather, started := true, core := 0, acd := 0, lcore := 0,
      seed := s.reg (Reg.qmActSeed r.act), axis := axis, entry := s.readMem .near (s.bucketEntry r.act l.tag) 64, hp := [],
      elems := (l.parts.headD []).length / 2 * s.extent axis, scratch := 0, own := [], scanned := false, agreed := 0, hop := 0,
      blocks := [], sum := [], sumAt := none, origin := none, bumps := 0, votes := [], taken := [], computing := [], halves := [],
      farBad := [], stored := [], arrived := [], aux := [], poison := none, conds := [], attempts := [], asked := [], sent := [],
      accepted := [], progressAt := none, regather := true }

/-- Writes runs of bytes to ranges in order. -/
def State.writeRuns (s : State) : List (Space × Nat × Nat) → Bytes → State
  | [], _ => s
  | m :: ms, bs => State.writeRuns ((s.writeMem m.1 m.2.1 (bs.take m.2.2)).askFar m.1 m.2.1 m.2.2 true .agent) ms (bs.drop m.2.2)

/-- Restores a slice: master, moments, residual and history; its bucket stands as last updated (R351, R353). -/
def State.restoreSlice (s : State) (r : Rollback) (l : SavedSlice) : State :=
  let part (i : Nat) : Bytes := (l.parts[i]?).getD []
  let b := s.restoreShape r l
  let s := s.writeMem .near b.master (part 0)
  let s := State.writeRuns s (s.momAreas b) (part 1)
  let s := s.writeMem .near b.resid (part 2)
  let key := tagKey r.act l.tag
  let old := s.history.filter fun h => h.1 ≠ key
  let s := { s with history := if (part 3).length ≤ 8 then old else (key, fieldAt (part 3) 8 4, fieldAt (part 3) 12 4) :: old }
  s.noteUpdate { b with regather := false }

/-- Restores the state of the rollback's step from a copy of it (R353). -/
def State.restoreFrom (s : State) (r : Rollback) (c : Snapshot) : State :=
  let s := s.each c.slices fun l s => s.readAreas 0 (slotOf s.snaps r.step) l
  let regions := c.slices.flatMap fun l => (l.parts[4]?).getD []
  let s := State.writeRuns s (s.ckptRegions.map fun p => (.near, p.1, p.2)) regions
  let s := s.each (c.slices.filter fun l => l.shape.isSome || l.parts.headD [] ≠ []) fun l s => s.restoreSlice r l
  let s := s.setReg (Reg.qmActSeed r.act) c.seed
  { s with rollback := some { r with restored := true, todo := c.slices.map (·.tag) } }

/-- Begins the gather of a tag's restored master in a free slot (R302, R353). -/
def State.regather (s : State) (b : Bucket) (slot : Nat) : State :=
  let key := slotKey b.mw slot
  let o := s.ownShard b
  let amax := match s.history.find? fun h => h.1 = tagKey b.act b.tag with | some (_, _, a) => a | none => 0
  let s := s.setBucket key { b with state := .gather, regather := true, scratch := 0,
                                    aux := Sparse.put [] (s.ringAt b) (amax, 0xFFFF) }
  let s := s.each (s.gatherBlocks b (s.masters b o.1 o.2) amax 0xFFFF) fun x s =>
    let s := s.storeBlock key (s.ringAt b) (blockBytes x.1 x.2)
    if 1 < s.ringLen b then s.sendGather key b x.1 x.2 else s
  s.finishBucket key

/-- Begins the gathers for which a slot is free. -/
def State.regatherSome (r : Rollback) : List Nat → State → State
  | [], s => s
  | t :: ts, s =>
    match s.lastUpdate t with
    | none => State.regatherSome r ts { s with rollback := s.rollback.map fun r => { r with todo := r.todo.erase t } }
    | some b =>
      match s.freeSlot b.mw with
      | none => s
      | some i =>
        State.regatherSome r ts
          (State.regather { s with rollback := s.rollback.map fun r => { r with todo := r.todo.erase t } }
            { b with step := r.step } i)

/-- Whether the queues that a rollback resets have stopped (R353). -/
def State.rollbackDrained (s : State) (r : Rollback) : Bool :=
  s.createdQueues.all fun q => !s.ownsQueue r.act q || s.qState q ≠ 7

/-- The copy that a rollback restores from, when it holds every tag's slice. -/
def State.rollbackCopy (s : State) (r : Rollback) : Option Snapshot :=
  match copyOf s.snaps r.step with
  | some c => if s.ckptTags.all fun t => c.slices.any fun l => l.tag = t then some c else none
  | none => none

/-- The FAULT event of kind RESTORED, that carries the step; where in its payload is not stated (R353; log 84). -/
def State.restoredEvent (s : State) (r : Rollback) : State :=
  let st := openStatus (Config.faultStatus 2)
  let k := Config.restoredPlace.toNat % 37
  let pay := openPayload 0x0C st r.step s.now
  let s := { s with rollback := none }
  s.broadcast [r.act] (plainRec 0x0C (openSeverity 0x0C st) st 0 s.now (pay.take k ++ leBytes 4 r.step ++ pay.drop (k + 4)))

/-- The warden, once it knows that every module has restored, writes its event (R353). -/
def State.allRestored (s : State) : State :=
  match s.rollback with
  | some r => if r.complete && s.jobModules.all s.restoredBy.contains then s.restoredEvent r else s
  | none => s

/-- RESTORED noted by the warden. -/
def State.restoredFrom (s : State) (src : Nat) : State :=
  State.allRestored { s with restoredBy := if s.restoredBy.contains src then s.restoredBy else s.restoredBy ++ [src] }

/-- RESTORE_COMPLETE: once the queues have drained the state of step k is restored and the gathers begin. Once every working
copy stands, a module tells the warden and writes its RESTORED event; the warden, which alone learns of the others, writes its
own when every module has restored (R353; log 84). -/
def State.restoreComplete (s : State) : State :=
  match s.rollback with
  | none => s
  | some r =>
    if s.ready = false ∨ s.rollbackDrained r = false then s
    else
      let s := if r.restored then s else
        match s.rollbackCopy r with
        | some c => s.restoreFrom r c
        | none => s
      match s.rollback with
      | none => s
      | some r =>
        if !r.restored then s
        else
          let s := State.regatherSome r r.todo s
          if (s.rollback.map (·.todo)).getD [] = [] ∧ (s.buckets.any fun p => p.2.regather) = false then
            if s.self = s.primary then
              State.restoredFrom { s with rollback := some { r with todo := [], complete := true } } s.self
            else (s.restoredEvent r).heartbeat s.primary 8 s.self r.step 0
          else s

/-! Meanings. -/

/-- OPTIMIZER_COMMIT. -/
def execOptimizerCommit (m slot : Nat) (s : State) : Host.Outcome State Fault Refusal :=
  whenUnits s (okTwo m && okSlot slot) (s.commitStep (slotKey m slot))
/-- REMAP (R323, R349, R350, R353). -/
def execRemap (p : Nat) (f : Frame) (s : State) : Host.Outcome State Fault Refusal :=
  whenUnits s (okPort p)
    (if s.alive then s.arrive p f 0xC fun s => s.onlyIf p (s.remapOk f) fun s => s.applyRemap f.payload else s)
/-- RESTORE_COMPLETE. -/
def execRestoreComplete (s : State) : Host.Outcome State Fault Refusal := whenUnits s true s.restoreComplete
/-- CHECKPOINT_FRAME (R322, R351). -/
def execCheckpointFrame (p : Nat) (f : Frame) (s : State) : Host.Outcome State Fault Refusal :=
  whenUnits s (okPort p) (if s.alive then s.arrive p f 3 fun s => s.ckptFrame p f else s)
/-- SLICE_ACK: from the buddy (R323, R352). -/
def execSliceAck (p : Nat) (f : Frame) (s : State) : Host.Outcome State Fault Refusal :=
  whenUnits s (okPort p) (s.beatFrame p f 7 (fun s => f.src.toNat = s.buddyOf s.selfLogical true)
    fun s => s.sliceAcked (hbStep f) (hbTag f))
/-- CKPT_DONE: to the warden (R323, R352). -/
def execCkptDone (p : Nat) (f : Frame) (s : State) : Host.Outcome State Fault Refusal :=
  whenUnits s (okPort p) (s.beatFrame p f 5 (fun s => s.self = s.primary) fun s => s.ckptDoneFrom f.src.toNat (hbStep f))
/-- CKPT_COMMIT: from the warden, to a newer step (R323, R352). -/
def execCkptCommit (p : Nat) (f : Frame) (s : State) : Host.Outcome State Fault Refusal :=
  whenUnits s (okPort p) (s.beatFrame p f 6
    (fun s => f.src.toNat = s.primary &&
      (s.fld Reg.netCkpt Fld.netCkptLastStep = 0xFFFFFFFF || decide (s.fld Reg.netCkpt Fld.netCkptLastStep < hbStep f)))
    fun s => s.ckptCommitted (hbStep f))
/-- RESTORED: the warden notes who has restored (R323, R353). -/
def execRestored (p : Nat) (f : Frame) (s : State) : Host.Outcome State Fault Refusal :=
  whenUnits s (okPort p) (s.beatFrame p f 8 (fun s => s.self = s.primary)
    fun s => s.restoredFrom f.src.toNat)

end Sys2Proof.Machine
end

