-- ==== Sys2Proof/Machine/Clock.lean ====
section
/-! DEFINITION. Disciplining the Show Clock (R194 to R198) and the time transfer across the fabric (R329). -/

namespace Sys2Proof.Machine

/-- SCK.CTL.SOURCE (Table 7.1). -/
def State.timeSource (s : State) : Nat := s.fld Reg.sckCtl Fld.sckCtlSource

/-- Sets the count once, before READY, when the time of day is first known (R195, R380). -/
def State.setTime (s : State) (t : Nat) : State :=
  { s with now := t % 2 ^ 64,
           clock := { s.clock with stepped := s.clock.stepped + ((t % 2 ^ 64 : Nat) : Int) - s.now } }.setFld Reg.sckStatus Fld.sckStatusTimeSet 1

/-- Whether the count may still be set (R195). -/
def State.mayStep (s : State) : Bool := decide (s.phase < 6) && !s.flag Reg.sckStatus Fld.sckStatusTimeSet

/-- A measured phase error in ps, Show Clock minus reference: shown, and slewed away (R195, Table 7.8). SCK.ERROR.PS keeps the
low 32 bits of an error that does not fit it (DESIGN CHOICE, log 162). -/
def State.slewBy (s : State) (errPs : Int) : State :=
  let s := s.setFld Reg.sckError Fld.sckErrorPs (ofSigned 32 errPs)
  { s with clock := { s.clock with slew := -errPs, slewFrom := s.now } }.setFld Reg.sckStatus Fld.sckStatusSlewing
    (b2n (decide (errPs ≠ 0)))

/-- Shows whether the clock is locked; HOLDOVER clears once it is (R197). -/
def State.showLock (s : State) (locked : Bool) : State :=
  let s := s.setFld Reg.sckStatus Fld.sckStatusLocked (b2n locked)
  if locked then s.setFld Reg.sckStatus Fld.sckStatusHoldover 0 else s

/-- REF_PPS_EDGE, with SOURCE 1: the edge takes the time of day from the last write of SCK.TOD more than a microsecond old,
a later one waits for the following edge, and it disciplines the count; 16 edges in a row within ±2 ns lock it (R194, R196). -/
def State.ppsEdge (s : State) (errPs : Int) : State :=
  if s.alive = false ∨ s.timeSource ≠ 1 then s
  else
    let good := if -2000 ≤ errPs ∧ errPs ≤ 2000 then min 16 (s.clock.ppsGood + 1) else 0
    let timely (w : Nat × Nat) : Bool := decide (w.2 + 1000 ≤ s.now)
    let armed := (s.clock.todArmed.filter timely).getLast?.map (·.1)
    let s := { s with clock := { s.clock with ppsGood := good, todArmed := s.clock.todArmed.filter fun w => !timely w } }
    let s := match armed with
      | some sec => if s.mayStep then s.setTime (sec * 1000000000) else s
      | none => s
    (s.slewBy errPs).showLock (good = 16)

/-- Whether the last three pairs agree within ±100 ns (Table 7.1). -/
def pairsAgree (l : List Int) : Bool :=
  decide (l.length = 3) && l.all fun a => l.all fun b => decide (a - b ≤ 100) && decide (b - a ≤ 100)

/-- PTP_COMMIT, with SOURCE 2: the PTP time of SCK.PTP_NS held at Show Clock value `tick`; a pair more than 1 s old is
discarded (R194, R196). -/
def State.ptpCommit (s : State) (tick : Nat) : State :=
  if s.alive = false ∨ s.timeSource ≠ 2 ∨ tick + 1000000000 < s.now then s
  else
    let off : Int := (tick : Int) - (s.reg Reg.sckPtpNs : Int)
    let step := s.mayStep
    let off' : Int := if step then 0 else off
    let old := if step then [] else s.clock.pairs
    let pairs := (old ++ [off']).drop (old.length - 2)
    let s := if step then s.setTime ((s.now : Int) - off).toNat else s
    let s := { s with clock := { s.clock with pairs := pairs, lastPair := s.now } }
    (s.slewBy (off' * 1000)).showLock (pairsAgree pairs)

/-- Whether the selected reference can count as lost: with SOURCE 1 whenever the pins say so, with SOURCE 2 after 2 s
without a pair, with SOURCE 3 without a valid parent (R197). -/
def State.referenceGone (s : State) : Bool :=
  match s.timeSource with
  | 1 => true
  | 2 => decide (s.clock.lastPair + 2000000000 < s.now)
  | 3 => !s.flag Reg.sckStatus Fld.sckStatusParentValid
  | _ => false

/-- REFERENCE_LOSS: the module holds its last frequency, sets HOLDOVER and writes one event (R197). -/
def State.referenceLoss (s : State) : State :=
  if s.alive = false ∨ s.referenceGone = false ∨ s.flag Reg.sckStatus Fld.sckStatusHoldover then s
  else
    let s := s.setFld Reg.sckStatus Fld.sckStatusHoldover 1
    let s := s.setFld Reg.sckStatus Fld.sckStatusLocked 0
    let s := { s with clock := { s.clock with ppsGood := 0, pairs := [], transfers := 0 } }
    s.actEvent 0x09 (openStatus Config.holdoverStatus) 0 (leBytes 40 (Config.eventPayload 0x09 (openStatus Config.holdoverStatus) 0 s.now).toNat)

/-- SLEW_COMPLETE: at 100 ppm at most, a correction takes 10 ns for each picosecond of it, and SLEWING reads 1 until then
(R195). -/
def State.slewDone (s : State) : State :=
  if s.clock.slewFrom + 10 * s.clock.slew.natAbs ≤ s.now then
    { s with clock := { s.clock with slew := 0 } }.setFld Reg.sckStatus Fld.sckStatusSlewing 0
  else s

/-! TIME frames. Stamps are in units of 2^-16 ns. -/

/-- The payload of a TIME frame (Table 11.10). -/
def timeBytes (seq tx echoTx echoRx : Nat) : Bytes :=
  leBytes 4 seq ++ leBytes 2 (tx % 65536) ++ leBytes 2 0 ++ leBytes 8 (tx / 65536) ++ leBytes 8 (echoTx / 65536) ++
    leBytes 2 (echoTx % 65536) ++ leBytes 2 (echoRx % 65536) ++ leBytes 4 0 ++ leBytes 8 (echoRx / 65536)

/-- The four stamps of an exchange: own transmit, partner's receive, partner's transmit, own receive. -/
structure TimeStamps where
  a1 : Nat
  b1 : Nat
  b2 : Nat
  a2 : Nat
  deriving DecidableEq, Repr

/-- The stamps of a received TIME frame; none when the partner has had no frame of this port to echo. -/
def timeStamps (pay : Bytes) (rx : Nat) : Option TimeStamps :=
  let a1 := fieldAt pay 16 8 * 65536 + fieldAt pay 24 2
  if a1 = 0 then none
  else some { a1 := a1, b1 := fieldAt pay 32 8 * 65536 + fieldAt pay 26 2,
              b2 := fieldAt pay 8 8 * 65536 + fieldAt pay 4 2, a2 := rx }

/-- theta of R329 in ps: parent minus child (rounded down, log 49). -/
def TimeStamps.theta (t : TimeStamps) (asymPs : Int) : Int :=
  ((((t.b1 : Int) - t.a1) - ((t.a2 : Int) - t.b2)) * 1000 - asymPs * 65536) / 131072

/-- delay of R329 in ps. -/
def TimeStamps.delay (t : TimeStamps) : Int :=
  ((((t.b1 : Int) - t.a1) + ((t.a2 : Int) - t.b2)) * 1000) / 131072

/-- A transfer on the parent port: sixteen in a row within ±0.375 ns lock the count, which slews by theta; the first
sets it before READY (R194, R195, R329). -/
def State.transfer (s : State) (theta : Int) : State :=
  if s.mayStep then
    { s.setTime ((s.now : Int) + theta / 1000).toNat with clock := { s.clock with transfers := 0 } }
  else
    let n := if -375 ≤ theta ∧ theta ≤ 375 then min 16 (s.clock.transfers + 1) else 0
    ({ s with clock := { s.clock with transfers := n } }.slewBy (-theta)).showLock (n = 16)

/-- The effect of a TIME frame from the confirmed partner (R323, R329). -/
def State.timeFrame (s : State) (p : Nat) (f : Frame) (rx : Nat) : State :=
  let tx := fieldAt f.payload 8 8 * 65536 + fieldAt f.payload 4 2
  let s := s.modPort p fun k => { k with lastRx := some (tx, rx) }
  match timeStamps f.payload rx with
  | none => s
  | some t =>
    let s := (s.setFld (Reg.lnkTime p) Fld.lnkTimeDelayPs (ofSigned 32 t.delay)).showParent
    if s.timeSource = 3 ∧ s.flag Reg.sckStatus Fld.sckStatusParentValid ∧ s.fld Reg.sckStatus Fld.sckStatusParent = p then
      s.transfer (t.theta (toSigned 32 (s.fld (Reg.lnkTime p) Fld.lnkTimeAsymPs)))
    else s

/-- TIME_FRAME_SEND: an in-service port sends its partner the stamp of this frame and those of the last one received
(R198, R329). -/
def State.sendTime (s : State) (p tx : Nat) : State :=
  if s.alive ∧ s.inService p then
    let k := s.port p
    let e := k.lastRx.getD (0, 0)
    let s := s.modPort p fun k => { k with timeSeq := (k.timeSeq + 1) % 2 ^ 32 }
    s.sendOut p (s.newFrame (s.partner p) 7 3 [] (timeBytes k.timeSeq tx e.1 e.2))
  else s

/-! Meanings. -/

/-- REF_PPS_EDGE. -/
def execRefPpsEdge (errPs : Int) (s : State) : Host.Outcome State Fault Refusal := whenUnits s true (s.ppsEdge errPs)
/-- PTP_COMMIT. -/
def execPtpCommit (tick : Nat) (s : State) : Host.Outcome State Fault Refusal := whenUnits s true (s.ptpCommit tick)
/-- REFERENCE_LOSS. -/
def execReferenceLoss (s : State) : Host.Outcome State Fault Refusal := whenUnits s true s.referenceLoss
/-- SLEW_COMPLETE. -/
def execSlewComplete (s : State) : Host.Outcome State Fault Refusal := whenUnits s true s.slewDone
/-- TIME. -/
def execTime (p : Nat) (f : Frame) (rxNs rxFrac : Nat) (s : State) : Host.Outcome State Fault Refusal :=
  whenUnits s (okPort p) (s.arrive p f 7 fun s =>
    s.onlyIf p (f.src.toNat = s.partner p) fun s => s.timeFrame p f (rxNs * 65536 + rxFrac % 65536))
/-- TIME_FRAME_SEND. -/
def execTimeFrameSend (p txNs txFrac : Nat) (s : State) : Host.Outcome State Fault Refusal :=
  whenUnits s (okPort p) (s.sendTime p (txNs * 65536 + txFrac % 65536))

end Sys2Proof.Machine
end

