-- ==== Sys2Proof/Machine/CueFire.lean ====
section
/-! DEFINITION. The firing of a cue entry and its action (R201 to R203, R213). -/

namespace Sys2Proof.Machine

/-- Whether an armed entry has come to its firing time (R201). -/
def State.cueDue (s : State) (e : Nat) : Bool :=
  let o := s.cueInForce e
  o.enable && decide (o.fireAt ≤ s.now)

/-- The tick in which an armed entry fires: FIRE_AT, or the tick from which its values hold when that is later (R201,
R202). -/
def State.cueTick (s : State) (e : Nat) : Nat := max (s.cueInForce e).fireAt (s.cueInForce e).since

/-- Whether no other entry is to be dispatched before `e`: one that fires in an earlier tick, or in the same and has a lower
number (R202). -/
def State.cueFirst (s : State) (e : Nat) : Bool :=
  (List.range 512).all fun k =>
    !s.cueDue k || decide (s.cueTick e < s.cueTick k) || (decide (s.cueTick e = s.cueTick k) && decide (e ≤ k))

/-- The first firing time of a period that lies above the count, and the firings skipped (R202). -/
def nextFiring (fireAt period now : Nat) : Nat × Nat :=
  if now < fireAt + period then (fireAt + period, 0)
  else
    let k := (now - fireAt) / period
    (fireAt + (k + 1) * period, k)

/-- Counts a firing and disarms or re-arms the entry. Where the entry was written in the same tick, the writes stand:
it fires with the values it held before them (R202). -/
def State.cueCount (s : State) (e : Nat) (o : CueOld) : State :=
  let (next, _) := nextFiring o.fireAt o.period s.now
  let after : CueOld := if o.period = 0 then { o with enable := false } else { o with fireAt := next % 2 ^ 64 }
  let s := s.addWrap (Reg.cueCtl e) Fld.cueCtlFireCount 1
  let s := if o.wrote.contains 0 ∨ o.wrote.contains 1 then s else s.setFld (Reg.cueCtl e) Fld.cueCtlFired 1
  let s := if o.wrote.contains 1 then s
    else s.setFld (Reg.cueCtl e) Fld.cueCtlEnable (b2n after.enable)
  let s := if o.wrote.contains 0 then s else s.setReg (Reg.cueFireAt e) after.fireAt
  if o.wrote.isEmpty then s else { s with cueOld := Sparse.put s.cueOld e after }

/-- Ends every CUEWAIT on the entry that issued at or before the firing's stamp (R203). -/
def State.cueRelease (s : State) (e stamp : Nat) : State :=
  s.each (List.range 208) fun n s =>
    s.each [0, 1] fun x s =>
      match (s.ctx n x).cueWait with
      | some (k, t) =>
        if k = e ∧ t ≤ stamp then (s.stirred n).modCtx n x fun c => { c with cueWait := none } else s
      | none => s

/-- The record of a SAMPLE cue (R213), from the values held at the dispatch. -/
def State.sampleRecord (s : State) (a fireAt count : Nat) : Bytes :=
  let ph := s.fld (Reg.sckPhase a) Fld.sckPhasePhase
  let ticks := (List.range 7).flatMap fun i =>
    leBytes 8 (s.reg (Reg.sckPhaseTicks a i) + if i = ph then fireAt - s.reg (Reg.sckPhaseStart a) else 0)
  let idle := (List.range 8).flatMap fun c => leBytes 8 (s.reg (Reg.sckIdle a c))
  padTo 256 (leBytes 8 fireAt ++ leBytes 1 a ++ leBytes 1 ph ++ leBytes 2 0 ++ leBytes 4 count ++ ticks ++ idle)

/-- SAMPLE: the record enters its ring, or the act is told that the address is not its own (R213). Which of its
records a firing writes follows FIRE_COUNT after it (DEDUCED, log 88). -/
def State.cueSample (s : State) (a fireAt arg count : Nat) : State :=
  let at_ := bits arg 16 32 * 65536 + 256 * (count % 256)
  if s.nearAllowed a at_ 256 true then s.writeMem .near at_ (s.sampleRecord a fireAt count) else s.deniedEvent a

/-- START_QUEUE: a queue of the act that is held for the cue runs (R201, Table 8.5). -/
def State.cueStart (s : State) (a q : Nat) : State :=
  if s.ownsQueue a q ∧ s.qState q = 3 then (s.setQState q 2).wakeQueue q else s

/-- FENCE_CHECK: reports a semaphore below its minimum (R201). The event's type and the places of the semaphore and its
value are a DESIGN CHOICE (log 89). -/
def State.cueCheck (s : State) (a arg : Nat) : State :=
  let k := bits arg 0 6
  let v := s.sem a k
  if v < bits arg 32 32 then s.actEvent 0x09 0x40 a (leBytes 4 k ++ leBytes 4 v) else s

/-- An entry's action (Table 7.3). -/
def State.cueAction (s : State) (e a : Nat) (o : CueOld) : State :=
  match o.action with
  | 1 => s.cueStart a (bits o.arg 0 16)
  | 2 => s.cueSample a o.fireAt o.arg (s.fld (Reg.cueCtl e) Fld.cueCtlFireCount)
  | 3 => s.ckptCue (bits o.arg 0 16)
  | 4 => s.cueCheck a o.arg
  | _ => s

/-- CUE_FIRE: an armed entry that has come to its time fires (R201, R202). -/
def State.cueFire (s : State) (e : Nat) : State :=
  if s.alive && s.cueDue e && s.cueFirst e then
    let o := s.cueInForce e
    let a := s.cueAct e
    let (_, skipped) := nextFiring o.fireAt o.period s.now
    let s := ((s.cueCount e o).cueRelease e o.fireAt).cueAction e a o
    if o.period ≠ 0 ∧ skipped ≠ 0 then s.actEvent 0x09 0x40 a (leBytes 8 skipped) else s
  else s

/-- CUE_FIRE. -/
def execCueFire (entry : Nat) (s : State) : Host.Outcome State Fault Refusal :=
  whenUnits s (okCue entry) (s.cueFire entry)

end Sys2Proof.Machine
end

