-- ==== Sys2Proof/Machine/Fabric.lean ====
section
/-! DEFINITION. The Damman Fabric's links: link blocks (R309, R310), bring-up and authentication (R314 to R319),
credits (R313), forwarding, acknowledgement and link notices (R324 to R327). -/

namespace Sys2Proof.Machine

/-! Link blocks. -/

/-- Whether sequence number `a` is at or before `b`, modulo 4,096. -/
def seqLe (a b : Nat) : Bool := decide ((b + 4096 - a % 4096) % 4096 < 2048)

/-- Whether a port's receiver runs: lanes locked (Table 11.3). -/
def State.linked (s : State) (p : Nat) : Bool :=
  s.portState p = 2 || s.portState p = 3 || s.portState p = 4 || s.portState p = 5

/-- The partner's acknowledgement frees the replay buffer, and frames that waited for its room may go (R310). -/
def State.linkAck (s : State) (p ack : Nat) : State :=
  let s := s.modPort p fun k =>
    { k with unacked := k.unacked.filter fun u => !seqLe u.1 ack, sent := k.sent.filter fun b => !seqLe b.seq ack }
  State.drainPort p (s.port p).outq.length s

/-- A NAK replays every link block from ACK + 1; 16 replays of one block in succession retrain the port (R310). -/
def State.linkNak (s : State) (p ack : Nat) : State :=
  let s := s.addSat (Reg.lnkRetry p) Fld.lnkRetryReplays 1
  let s := s.modPort p fun k =>
    { k with replays := if k.lastReplay = some ack then k.replays + 1 else 1, lastReplay := some ack }
  if 16 ≤ (s.port p).replays then s.retrain p
  else s.each (s.port p).sent fun b s => s.emit (.link p (b.bytes (s.port p).rxSeq))

/-- Credits come back: the count rises, a deadline that has not passed is met, waiting frames go, and frames that
still wait take a new deadline (R312, R313). -/
def State.creditReturn (s : State) (p vc cls n : Nat) : State :=
  if n = 0 then s
  else
    let k := Reg.lnkVc p vc
    let s := s.setFld k (creditFld cls) (min (s.fld k (creditFld cls) + n) (vcBuffer vc))
    let late := match Sparse.get? (s.port p).creditAt (laneKey vc cls) with
      | some d => decide (d < s.now)
      | none => false
    if late then s
    else
      let s := s.modPort p fun q => { q with creditAt := Sparse.del q.creditAt (laneKey vc cls) }
      let s := State.drainPort p (s.port p).outq.length s
      if (s.port p).outq.any fun o => o.frame.vc.toNat = vc && b2n o.frame.cls = cls && !s.credited p o.frame then
        s.modPort p fun q => { q with creditAt := Sparse.put q.creditAt (laneKey vc cls)
                                        (s.now + s.fld (Reg.lnkCreditNs p) Fld.lnkCreditNsNs) }
      else s

/-- The data bytes of a flit. -/
def flitBytes (f : Flit) : Nat := if f.valid then 16 * (f.units.toNat + 1) else 0

/-- The channels and classes with a frame partly received after a flit: START opens one; END, with ABORT or without, closes it
(R311). A frame that is aborted, or whose link leaves service first, is delivered by no command (log 35). -/
def flitOpen (l : List Nat) (f : Flit) : List Nat :=
  let k := laneKey f.vc.toNat (b2n f.cls)
  if !f.valid then l
  else
    let l := if f.start then k :: l.filter (· ≠ k) else l
    if f.isEnd then l.filter (· ≠ k) else l

/-- The symbols that RS(448,416) corrects (R309). -/
def linkCorrectable (b : LinkBlock) : Bool := decide (b.errors ≤ 16)

/-- A link block that cannot be corrected, or out of order, is discarded and NAKed once until the expected block
comes; one in order is taken (R309, R310). -/
def State.linkBlock (s : State) (p : Nat) (b : LinkBlock) : State :=
  if !s.linked p then s
  else
    let s := if linkCorrectable b then s.addSat (Reg.lnkFec p) Fld.lnkFecCorrected b.errors
      else s.addSat (Reg.lnkFec p) Fld.lnkFecUncorrected 1
    if linkCorrectable b = false ∨ b.seq.toNat ≠ ((s.port p).rxSeq + 1) % 4096 then
      if (s.port p).nakSent then s
      else (s.modPort p fun k => { k with nakSent := true }).sendIdle p true (0, 0, 0)
    else
      let s := s.modPort p fun k =>
        { k with rxSeq := b.seq.toNat, nakSent := false, openRx := flitOpen (flitOpen k.openRx b.flit0) b.flit1 }
      let s := s.addWrap (Reg.lnkBytesRx p) Fld.lnkBytesRxCount (flitBytes b.flit0 + flitBytes b.flit1)
      let s := s.linkAck p b.ack.toNat
      let s := s.creditReturn p b.creditVc.toNat (b2n b.creditClass) b.credits.toNat
      if b.nak then s.linkNak p b.ack.toNat else s

/-- LINK_BLOCK_RECEIVE. -/
def execLinkBlockReceive (p : Nat) (b : LinkBlock) (s : State) : Host.Outcome State Fault Refusal :=
  whenUnits s (okPort p) (s.linkBlock p b)

/-! Authentication. -/

/-- The text of a HELLO (Table 11.5). -/
def helloBytes (h : Hello) : Bytes :=
  padTo 32 h.nonce ++ leBytes 8 h.fabricId.toNat ++ leBytes 2 h.addr.toNat ++ leBytes 1 h.port.toNat ++
    leBytes 1 (b2n h.encrypt) ++ h.key ++ h.chain

/-- The transcript: both HELLO payloads, the end of lower (address, port) first (R317). -/
def transcript (a b : Hello) : Bytes :=
  if a.addr.toNat * 8 + a.port.toNat ≤ b.addr.toNat * 8 + b.port.toNat then helloBytes a ++ helloBytes b
  else helloBytes b ++ helloBytes a

/-- Sends an AUTH frame to the module that the port's cable must lead to (R317, R318). -/
def State.sendAuth (s : State) (p : Nat) (payload : Bytes) : State :=
  s.sendOut p (s.newFrame (s.besides s.self (p / 2) (decide (p % 2 = 0))) 0xB 3 [] payload)

/-- The payload of a message (R317). -/
def authBytes (m : AuthMsg) : Bytes :=
  match m with
  | .hello h => helloBytes h
  | .proof g => g

/-- The keys that two HELLOs give this end's port: the first half of what HKDF gives serves the direction from the end that comes
first in the transcript (R319; the halves are a DESIGN CHOICE, log 170). -/
def linkKeys (own other : Hello) : LinkKeys :=
  let first := decide (own.addr.toNat * 8 + own.port.toNat ≤ other.addr.toNat * 8 + other.port.toNat)
  let salt := if first then own.nonce ++ other.nonce else other.nonce ++ own.nonce
  let bs := leBytes 72 (Config.hkdf (Config.ecdh own.key other.key) salt).toNat
  let half (up : Bool) := if up then bs.take 36 else bs.drop 36
  { txKey := (half first).take 32, txSalt := (half first).drop 32, rxKey := (half (!first)).take 32,
    rxSalt := (half (!first)).drop 32 }

/-- Sends this end's HELLO, with a fresh nonce and key; one that does not fit its frame fails (R317). -/
def State.sendHello (s : State) (p : Nat) : State :=
  let h : Hello :=
    { nonce := leBytes 32 (Config.nonce s.free).toNat, fabricId := BitVec.ofNat 64 (s.reg Reg.fabId),
      addr := BitVec.ofNat 16 s.self, port := BitVec.ofNat 3 p,
      encrypt := s.flag Reg.fabCrypto Fld.fabCryptoEncrypt,
      key := leBytes 97 (Config.ephemeralKey s.free).toNat, chain := Config.ownChain }
  let s := s.drawn.modPort p fun k => { k with ownHello := some h, hello := none, sentProof := false }
  if 4096 < (helloBytes h).length then (if s.portState p = 2 then s.setPort p 6 3 else s)
  else s.sendAuth p (helloBytes h)

/-- Why a partner's HELLO fails, as a reason of Table 11.3; the checks stand in the order of Table 11.5. -/
def State.helloFault (s : State) (h : Hello) : Option Nat :=
  let tick := if s.flag Reg.sckStatus Fld.sckStatusTimeSet then some s.now else none
  if 4096 < (helloBytes h).length ∨ !Config.chainOk h.chain s.trust.roots tick then some 3
  else if s.trust.revoked.contains (Config.chainSerial h.chain) then some 4
  else if h.fabricId.toNat ≠ s.reg Reg.fabId then some 5
  else if h.encrypt ≠ s.flag Reg.fabCrypto Fld.fabCryptoEncrypt then some 3
  else none

/-- The low 64 bits of a serial. -/
def lowSerial (serial : Bytes) : Nat := (serial.foldl (fun a b => a * 256 + b.toNat) 0) % 2 ^ 64

/-- A HELLO: checked, recorded and answered with PROOF, or the port is quarantined (R317). -/
def State.gotHello (s : State) (p : Nat) (h : Hello) : State :=
  let k := Reg.lnkStatus p
  let s := (s.setFld k Fld.lnkStatusPartner h.addr.toNat).setFld k Fld.lnkStatusPartnerPort h.port.toNat
  let s := s.setReg (Reg.lnkPartnerSerial p) (lowSerial (Config.chainSerial h.chain))
  match s.helloFault h with
  | some r => if s.portState p = 2 then s.setPort p 6 r else s
  | none =>
    match (s.port p).ownHello with
    | none => s
    | some own =>
      (s.modPort p fun k => { k with hello := some h, sentProof := true }).sendAuth p (Config.sign (transcript own h))

/-- Whether the confirmed partner stands where the port's cable must lead (R318). -/
def State.wellPlaced (s : State) (p : Nat) (h : Hello) : Bool :=
  let plus := decide (p % 2 = 0)
  h.addr.toNat = s.besides s.self (p / 2) plus && h.port.toNat = portOf (p / 2) (!plus)

/-- A PROOF: keys follow from a sound one, and the port is confirmed and enters service; a false one quarantines
it (R317 to R319). -/
def State.gotProof (s : State) (p : Nat) (signature : Bytes) : State :=
  match (s.port p).ownHello, (s.port p).hello with
  | some own, some h =>
    let st := s.portState p
    if Config.proofOk h.chain (transcript own h) signature then
      let s := s.modPort p fun k => { k with keys := if h.encrypt then some (linkKeys own h) else none, rekeying := false, txCount := 0, rxCount := 0 }
      let s := s.setFld (Reg.lnkStatus p) Fld.lnkStatusEncrypted (b2n h.encrypt)
      if st = 2 then
        let s := s.setPort p 3 0
        if s.wellPlaced p h then (s.modPort p fun k => { k with authFails := 0 }).setPort p 4 0 else s.setPort p 6 6
      else s
    else if st = 2 then s.setPort p 6 3 else s
  | _, _ => s

/-- Whether a direction's frame counter of a port with keys has reached 2^40, at which the ends rekey (R319). -/
def Port.rekeyDue (k : Port) : Bool := k.keys.isSome && (decide (2 ^ 40 ≤ k.txCount) || decide (2 ^ 40 ≤ k.rxCount))

/-- Begins a rekey (R319). -/
def State.beginRekey (s : State) (p : Nat) : State :=
  if (s.port p).rekeyDue ∧ (s.port p).rekeying = false then
    (s.modPort p fun k => { k with rekeying := true }).sendHello p
  else s

/-- Whether an AUTH frame comes from the partner of its port, while the port authenticates or rekeys (R323). A
partner that has sent no HELLO yet is whoever names itself in one (DEDUCED, log 36). -/
def State.authFrom (s : State) (p : Nat) (f : Frame) (msg : AuthMsg) : Bool :=
  ((s.portState p = 2 && decide (s.now ≤ (s.port p).since + 2 * second)) || (s.port p).rekeying) &&
    (match msg with
      | .hello h => f.src = h.addr
      | .proof _ => f.src.toNat = s.partner p)

/-- An AUTH frame with a message (R317, R322, R323). One that finds a rekey due begins it here too (R319). -/
def State.authFrame (s : State) (p : Nat) (f : Frame) (msg : AuthMsg) : State :=
  if s.linked p ∧ f.typ.toNat = 0xB ∧ f.dst.toNat = s.self ∧ f.payload = authBytes msg then
    let r := s.screen p f
    if !r.2 ∨ frameCrc f = false then r.1
    else (r.1.beginRekey p).onlyIf p ((r.1.beginRekey p).authFrom p f msg) fun s =>
      match msg with
      | .hello h => s.gotHello p h
      | .proof g => s.gotProof p g
  else s

/-- AUTH. -/
def execAuth (p : Nat) (f : Frame) (msg : AuthMsg) (s : State) : Host.Outcome State Fault Refusal :=
  whenUnits s (okPort p) (s.authFrame p f msg)

/-- AUTH_TIMEOUT: authentication not complete within 2 s (Table 11.3). -/
def execAuthTimeout (p : Nat) (s : State) : Host.Outcome State Fault Refusal :=
  whenUnits s (okPort p)
    (if s.portState p = 2 ∧ (s.port p).since + 2 * second < s.now then s.setPort p 6 3 else s)

/-- REKEY: a direction's frame counter has reached 2^40 (R319). -/
def execRekey (p : Nat) (s : State) : Host.Outcome State Fault Refusal := whenUnits s (okPort p) (s.beginRekey p)

/-! Bring-up and states. -/

/-- TRAINING_COMPLETE: every lane locked and decoding stable within 500 ms; the receive buffers' credits are full and
authentication begins (R314, R317). -/
def execTrainingComplete (p : Nat) (s : State) : Host.Outcome State Fault Refusal :=
  whenUnits s (okPort p)
    (if s.portState p = 1 ∧ s.now ≤ (s.port p).since + 500000000 then
      let s := (s.setFld (Reg.lnkStatus p) Fld.lnkStatusLanes 0xFF).fillCredits p
      let s := s.modPort p fun k =>
        { k with rxSeq := 0, txSeq := 0, nakSent := false, replays := 0, lastReplay := none, unacked := [], outq := [],
                 sent := [], openRx := [], creditAt := [], lastVc := 1, sinceVc2 := 0 }
      (s.setPort p 2 0).sendHello p
    else s)

/-- TRAINING_TIMEOUT: no signal, or a signal that did not train, at 500 ms (Table 11.3). -/
def execTrainingTimeout (p : Nat) (signal : Bool) (s : State) : Host.Outcome State Fault Refusal :=
  whenUnits s (okPort p)
    (if s.portState p = 1 ∧ (s.port p).since + 500000000 < s.now then s.setPort p 6 (if signal then 2 else 1) else s)

/-- CREDIT_TIMEOUT (R313). -/
def execCreditTimeout (p vc : Nat) (cls : Bool) (s : State) : Host.Outcome State Fault Refusal :=
  whenUnits s (okPort p && okFour vc)
    (match Sparse.get? (s.port p).creditAt (laneKey vc (b2n cls)) with
      | some d => if s.served p ∧ d < s.now then s.leavePort p 5 9 else s
      | none => s)

/-- DEGRADED_RETURN: full credits, 100 ms since entry, unless that was the third entry within 60 s (Table 11.3). -/
def execDegradedReturn (p : Nat) (s : State) : Host.Outcome State Fault Refusal :=
  whenUnits s (okPort p)
    (if s.portState p = 5 ∧ s.creditsFull p = true ∧ (s.port p).since + 100000000 ≤ s.now ∧
        (recent (s.port p).since (60 * second) (s.port p).degrades).length < 3 then s.setPort p 4 0 else s)

/-- QUARANTINE_RETRY: reasons 1 and 2 retrain every second, reason 3 after 10 s and at most three times (Table
11.3). -/
def execQuarantineRetry (p : Nat) (s : State) : Host.Outcome State Fault Refusal :=
  whenUnits s (okPort p)
    (let r := s.fld (Reg.lnkStatus p) Fld.lnkStatusReason
     let k := s.port p
     if s.portState p = 6 ∧ (r = 1 ∨ r = 2) ∧ k.since + second ≤ s.now then s.setPort p 1 0
     else if s.portState p = 6 ∧ r = 3 ∧ k.since + 10 * second ≤ s.now ∧ k.authFails < 3 then
       (s.modPort p fun k => { k with authFails := k.authFails + 1 }).setPort p 1 0
     else s)

/-- LANE_LOCK_LOSS: the port leaves service and retrains (R310). -/
def execLaneLockLoss (p lane : Nat) (s : State) : Host.Outcome State Fault Refusal :=
  whenUnits s (okPort p && okPort lane)
    (if s.served p then s.retrain p else if s.linked p then s.setPort p 1 0 else s)

/-- LNK.CTL.RETRY: QUARANTINED, DEGRADED or FAULTY to TRAINING (R314, Table 11.13). -/
def State.portRetry (s : State) (p : Nat) : State :=
  if s.portState p = 5 ∨ s.portState p = 6 ∨ s.portState p = 7 then
    (s.modPort p fun k => { k with authFails := 0 }).setPort p 1 0
  else s

/-- LNK.CTL.DISABLE set: the port goes to DISABLED (Table 11.3). -/
def State.portDisable (s : State) (p : Nat) : State :=
  (s.setFld (Reg.lnkCtl p) Fld.lnkCtlDisable 1).setPort p 0 12

/-- LNK.CTL.DISABLE cleared: a disabled port of a dimension with more than one module trains, once the boot has
brought the links up (R314, R380). -/
def State.portEnable (s : State) (p : Nat) : State :=
  let was := s.flag (Reg.lnkCtl p) Fld.lnkCtlDisable
  let s := s.setFld (Reg.lnkCtl p) Fld.lnkCtlDisable 0
  if was = true ∧ s.portState p = 0 ∧ 1 < s.extent (p / 2) ∧ 5 ≤ s.phase then s.setPort p 1 0 else s

/-- RETRY. -/
def execRetry (p : Nat) (s : State) : Host.Outcome State Fault Refusal := whenUnits s (okPort p) (s.portRetry p)
/-- DISABLE. -/
def execDisable (p : Nat) (s : State) : Host.Outcome State Fault Refusal := whenUnits s (okPort p) (s.portDisable p)
/-- LINK_ENABLE. -/
def execLinkEnable (p : Nat) (s : State) : Host.Outcome State Fault Refusal := whenUnits s (okPort p) (s.portEnable p)

/-! Frames. -/

/-- FRAME_FORWARD: a frame for another module is routed on (R325). A frame of a reserved TYPE is dropped, whomever it is for
(R322). -/
def State.forward (s : State) (p : Nat) (f : Frame) : State :=
  if (s.portState p = 4 ∨ s.portState p = 5) ∧ (f.dst.toNat ≠ s.self ∨ typeKnown f.typ.toNat = false) then
    let r := s.screen p f
    if !r.2 then r.1
    else if f.typ.toNat = 7 ∨ f.typ.toNat = 0xB then r.1.addrDrop p
    else r.1.route (some p) f
  else s

/-- FRAME_FORWARD. -/
def execFrameForward (p : Nat) (f : Frame) (s : State) : Host.Outcome State Fault Refusal :=
  whenUnits s (okPort p) (s.forward p f)

/-- Whether an ACK entry names a held frame (Table 11.7). -/
def ackNames (e : Nat) (h : HeldFrame) : Bool :=
  if bit e 0 then
    h.frame.typ.toNat = 2 && fieldAt h.frame.ext 0 2 = bits e 1 16 && fieldAt h.frame.ext 8 4 = bits e 17 32
  else
    h.frame.typ.toNat = 1 && (let b := h.frame.ext
      fieldAt b 10 2 = bits e 1 16 && bits (fieldAt b 22 1) 0 4 = bits e 17 4 && fieldAt b 12 4 = bits e 21 32)

/-- The entries of an ACK frame, at most 32. -/
def ackEntries (f : Frame) : List Nat :=
  (List.range (min 32 (f.payload.length / 8))).map fun i => fieldAt f.payload (8 * i) 8

/-- Whether an ACK frame releases a held frame: it names it and comes from its receiver. -/
def ackReleases (f : Frame) (h : HeldFrame) : Bool := h.frame.dst = f.src && (ackEntries f).any fun e => ackNames e h

/-- ACK: the frames it names and that are still held are released (R324). -/
def execAck (p : Nat) (f : Frame) (s : State) : Host.Outcome State Fault Refusal :=
  whenUnits s (okPort p)
    (s.arrive p f 4 fun s => s.onlyIf p (s.heldFrames.any (ackReleases f)) fun s =>
      { s with heldFrames := s.heldFrames.filter fun h => !ackReleases f h })

/-- FRAME_RESEND_TIMEOUT: a held frame is sent again 100 µs after its send stamp (R324). -/
def execFrameResendTimeout (idx : Nat) (s : State) : Host.Outcome State Fault Refusal :=
  whenUnits s true
    (match s.heldFrames[idx]? with
      | some h =>
        if h.sent + 100000 < s.now then
          State.sendFrame { s with heldFrames := s.heldFrames.set idx { h with sent := s.now } } h.frame
        else s
      | none => s)

/-- Sets FAB.FAULTS from the fault table of 512 links (Table 11.12). -/
def State.countFaults (s : State) : State :=
  (s.setFld Reg.fabFaults Fld.fabFaultsEntries s.faults.length).setFld Reg.fabFaults Fld.fabFaultsFull
    (b2n (decide (512 ≤ s.faults.length)))

/-- Enters a notice in the fault table, which holds 512 links (R327). -/
def State.noteFault (s : State) (e : LinkFault) : State :=
  let i := s.faults.findIdx? fun f => f.addr = e.addr && f.port = e.port
  match i with
  | some i => { s with faults := s.faults.set i e }
  | none => if s.faults.length < 512 then State.countFaults { s with faults := s.faults ++ [e] } else s

/-- LINK_STATE: a newer notice updates the fault table and is forwarded (R327). -/
def State.linkNotice (s : State) (p : Nat) (f : Frame) : State :=
  let w := fieldAt f.payload 0 4
  let e : LinkFault := { addr := bits w 0 16, port := bits w 16 3, state := bits w 19 3, gen := fieldAt f.payload 4 4 }
  let held := (s.faults.find? fun f => f.addr = e.addr && f.port = e.port).map (·.gen)
  s.onlyIf p (e.addr ≠ s.self && (match held with | some g => decide (g < e.gen) | none => true)) fun s =>
    (s.noteFault e).notice (some p) e.addr e.port e.state e.gen

/-- LINK_STATE. -/
def execLinkState (p : Nat) (f : Frame) (s : State) : Host.Outcome State Fault Refusal :=
  whenUnits s (okPort p) (s.arrive p f 8 fun s => s.linkNotice p f)

/-- Whether a header is that of a frame this module sent: of a BLOCK or COPY, which it holds, by DST, TYPE, LENGTH and CRC; of
another, of which it keeps nothing, by SRC (R323, R324; log 171). -/
def State.sentHeader (s : State) (h : Bytes) : Bool :=
  let typ := fieldAt h 4 1 % 16
  fieldAt h 2 2 = s.self && typeKnown typ &&
    (decide (3 ≤ typ) || s.heldFrames.any fun w => w.frame.dst.toNat = fieldAt h 0 2 && w.frame.typ.toNat = typ &&
      w.frame.length.toNat = fieldAt h 6 2 && w.frame.crc.toNat = fieldAt h 12 4)

/-- UNREACHABLE: the named frame stays held at its source (R325, R324). -/
def execUnreachable (p : Nat) (f : Frame) (s : State) : Host.Outcome State Fault Refusal :=
  whenUnits s (okPort p)
    (s.arrive p f 0xA fun s => s.onlyIf p (s.sentHeader f.payload) fun s => s)

end Sys2Proof.Machine
end

