-- ==== Sys2Proof/Machine/RegRules.lean ====
section
/-! DEFINITION. What a write does to the fields of a register (R8, R9, R373, Table 0.4, and the ranges and alignments
that the register tables state). -/

namespace Sys2Proof.Machine

/-- The bits of `old` with those that `m` covers taken from `v`. -/
def mergeBits (old m v : Nat) : Nat := old - (old &&& m) + (v &&& m)

/-- Whether a field's table allows a value. A value outside the range that a table states is ignored (DEDUCED from R373,
log 90). -/
def FieldDef.allows (f : FieldDef) (v : Nat) : Bool :=
  f.ranges.isEmpty || f.ranges.any fun r => decide (r.1 ≤ v) && decide (v ≤ r.2)

/-- The word after a write of the bits `m` of `v`, as far as one field goes (Table 0.4). -/
def FieldDef.write (f : FieldDef) (m v w : Nat) : Nat :=
  let old := bits w f.fld.lo f.fld.w
  let fm := bits m f.fld.lo f.fld.w
  let fv := bits v f.fld.lo f.fld.w
  match f.access with
  | .rw =>
    let new := mergeBits old fm fv
    if f.allows new then putBits w f.fld.lo f.fld.w new else w
  | .w1c => putBits w f.fld.lo f.fld.w (old - (old &&& (fm &&& fv)))
  | _ => w

/-- The word after a write of the bits `m` of `v`: reserved bits stay zero (R9). -/
def RegDef.write (r : RegDef) (m v w : Nat) : Nat := r.fields.foldl (fun w f => f.write m v w) w

/-- The low bits of a register's address field that read as zero (Tables 8.11, 9.11, 10.8, 13.10). -/
def lowZero (base : Nat) : Nat :=
  if base = Reg.qmQBase 0 then 12
  else if base = Reg.qmAperture 0 then 24
  else if base = Reg.inBatchBase 0 ∨ base = Reg.inStageBase 0 then 12
  else if base = Reg.carTable 0 then 16
  else if base = Reg.bootFlashAddr then 8
  else 0

/-- Each two-bit field of SEM_CAUSE keeps its value when 0b11 is written to it (Table 7.8). -/
def semCauseWrite (old new : Nat) : Nat :=
  (List.range 32).foldl (fun w i => if bits new (2 * i) 2 = 3 then putBits w (2 * i) 2 (bits old (2 * i) 2) else w) new

/-- Whether TIMEOUT_NS is at least five times PERIOD_NS (Table 12.10). -/
def netHbOk (w : Nat) : Bool := decide (5 * bits w 0 32 ≤ bits w 32 32)

/-- A write of TIMEOUT_NS below five times PERIOD_NS is ignored; PERIOD_NS takes its value all the same (Table 12.10;
log 90). -/
def netHbWrite (old new : Nat) : Nat := if netHbOk new then new else putBits new 32 32 (bits old 32 32)

/-- PRB.SEL: a GROUP of 9 to 15 reads as 0 (Table 14.10). -/
def prbSelWrite (w : Nat) : Nat := if 9 ≤ bits w 0 4 then putBits w 0 4 0 else w

/-- The word after a write, with the rules of the one register that the table of its base states beside its fields'. -/
def ruledWrite (r : RegDef) (m v w : Nat) : Nat :=
  let n := r.write m v w
  let z := lowZero r.base
  if z ≠ 0 then n / 2 ^ z * 2 ^ z
  else if r.base = Reg.sckSemCause 0 0 then semCauseWrite w n
  else if r.base = Reg.netHb then netHbWrite w n
  else if r.base = Reg.prbSel 0 then prbSelWrite n
  else n

/-! LOAD entries of a Playbill. -/

/-- The register that lies at a PF offset, if the map has one there. -/
def pfReg (off : Nat) : Option RegDef := if off < 2 ^ 26 then findReg off else none

/-- Whether an offset lies in SCK, CUE, MEM, CAR, NET, LNK or QM.ACT_ (R373). -/
def loadBlock (off : Nat) : Bool :=
  (decide (0x300000 ≤ off) && decide (off < 0x400000)) || (decide (0xA00000 ≤ off) && decide (off < 0xA80000)) ||
    (decide (0x800000 ≤ off) && decide (off < 0x840000)) || (decide (0x880000 ≤ off) && decide (off < 0x900000)) ||
    (decide (0xB00000 ≤ off) && decide (off < 0xB80000)) || (decide (0x980000 ≤ off) && decide (off < 0xA00000)) ||
    (decide (0x401000 ≤ off) && decide (off < 0x402000))

/-- Whether a LOAD entry sets a field: Playbill fields but SCK.ACT_a.ENABLED, and RW fields (R373). -/
def FieldDef.loads (base : Nat) (f : FieldDef) : Bool :=
  (f.playbill || decide (f.access = .rw)) && !(decide (base = Reg.sckAct 0) && decide (f.fld = Fld.sckActEnabled))

/-- Whether a LOAD entry may name a register (R373). -/
def RegDef.loadable (r : RegDef) : Bool :=
  r.fields.any (·.playbill) || (loadBlock r.base && r.fields.any fun f => decide (f.access = .rw))

/-- The bits of a word that its LOAD entry sets. -/
def RegDef.loadMask (r : RegDef) : Nat :=
  r.fields.foldl (fun m f => if f.loads r.base then putBits m f.fld.lo f.fld.w (2 ^ f.fld.w - 1) else m) 0

/-- Whether a register's own rules would ignore some of a value (R373). -/
def RegDef.ignores (r : RegDef) (v : Nat) : Bool :=
  (r.fields.any fun f => f.loads r.base && !f.allows (bits v f.fld.lo f.fld.w)) ||
    decide (v % 2 ^ lowZero r.base ≠ 0) ||
    (decide (r.base = Reg.sckSemCause 0 0) && decide (semCauseWrite 0 v ≠ v)) ||
    (decide (r.base = Reg.netHb) && !netHbOk v) || (decide (r.base = Reg.sckHeadline) && decide (8 < bits v 0 4))

/-- Whether a LOAD entry stands to R373. -/
def loadOk (off v : Nat) : Bool :=
  match pfReg off with
  | some r => r.loadable && decide (mergeBits v r.loadMask 0 = 0) && !r.ignores v
  | none => false

/-- A LOAD entry takes effect: its bits replace those of the register (R373). -/
def State.load (s : State) (off v : Nat) : State :=
  match pfReg off with
  | some r => s.setReg off (mergeBits (s.reg off) r.loadMask v)
  | none => s

end Sys2Proof.Machine
end

