-- ==== Sys2Proof/Machine/Playbill.lean ====
section
/-! DEFINITION. The images in the boot flash: firmware banks (R370) and Playbill slots, their layout, sections, LOAD
entries and consistency checks (R371 to R374, R382). -/

namespace Sys2Proof.Machine

/-! Firmware banks. -/

/-- The bytes of a firmware bank that are not erased, numbered from the bank's start. -/
def State.bankImage (s : State) (bank : Nat) : List Host.Cell :=
  s.flash.filterMap fun c =>
    if bank * 0x1000000 ≤ c.1 ∧ c.1 < (bank + 1) * 0x1000000 then some (c.1 - bank * 0x1000000, c.2) else none

/-- Whether a bank verifies; an image is at most 4 MiB (R370). -/
def State.bankOk (s : State) (bank : Nat) : Bool :=
  let m := s.bankImage bank
  m.all (fun c => decide (c.1 < 2 ^ 22)) && Config.firmwareOk m s.fuse.oxvasHash

/-- The bank that boots: the one with the higher version that verifies (R370; equal versions, log 92). -/
def State.bootBank (s : State) : Option Nat :=
  let v (k : Nat) := (Config.firmwareVersion (s.bankImage k)).toNat
  match s.bankOk 0, s.bankOk 1 with
  | true, true => some (if v 1 < v 0 then 0 else if v 0 < v 1 then 1 else b2n Config.firmwareTie)
  | true, false => some 0
  | false, true => some 1
  | false, false => none

/-! Sections. -/

/-- Whether every byte is zero. -/
def zeros (bs : Bytes) : Bool := bs.all fun b => b = 0

/-- The sections of an image, each its TYPE and payload, when `n` of them fill it exactly (R372). -/
def parseSections : Nat → Bytes → Option (List (Nat × Bytes))
  | 0, bs => if bs = [] then some [] else none
  | n + 1, bs =>
    let len := fieldAt bs 4 4
    if bs.length < 16 + len ∨ len % 16 ≠ 0 ∨ fieldAt bs 2 2 ≠ 0 ∨ fieldAt bs 8 8 ≠ 0 then none
    else (parseSections n (bs.drop (16 + len))).map fun l => (fieldAt bs 0 2, (bs.drop 16).take len) :: l

/-- The entries of a payload, `n` bytes each. -/
def entriesOf (n : Nat) (p : Bytes) : List Bytes := (List.range (p.length / n)).map fun i => bytesAt p (n * i) n

/-- An ACT section (Table 13.4). -/
def actSectionOk (p : Bytes) : Bool :=
  let t := fieldAt p 2 2
  decide (1 ≤ fieldAt p 0 1) && decide (fieldAt p 0 1 ≤ 8) && decide (t ≤ 192) && decide (16 + t ≤ p.length) &&
    ((p.drop 16).take t).all (fun d => decide (d.toNat < 8)) && zeros (p.drop (16 + t))

/-- A CERT section: a root and at most one intermediate (Table 13.4, R316). -/
def certSectionOk (p : Bytes) : Bool :=
  let n := fieldAt p 0 4
  let rest := p.drop (4 + n)
  let m := fieldAt rest 0 4
  decide (1 ≤ n) && decide (4 + n ≤ p.length) &&
    (zeros rest || (decide (1 ≤ m) && decide (4 + m ≤ rest.length) && zeros (rest.drop (4 + m))))

/-- A REVOKE section: up to 256 serials (Table 13.4). -/
def revokeSectionOk (p : Bytes) : Bool :=
  let l := entriesOf 24 p
  decide (l.length ≤ 256) && l.all (fun e => decide (1 ≤ fieldAt e 0 1) && decide (fieldAt e 0 1 ≤ 20)) &&
    zeros (p.drop (24 * l.length))

/-- The records of a LIBRARY payload, FN and context each, read with fuel (R382). -/
def parseLibrary : Nat → Bytes → Option (List (Nat × Nat))
  | 0, bs => if bs = [] then some [] else none
  | k + 1, bs =>
    if bs = [] then some []
    else
      let size := 16 + roundUp (fieldAt bs 4 4) 16
      let fn := fieldAt bs 0 2
      let c := fieldAt bs 2 1
      if bs.length < size ∨ fn < 0x8000 ∨ ¬(c = 0 ∨ c = 2 ∨ c = 3) then none
      else (parseLibrary k (bs.drop size)).map fun l => (fn, c) :: l

/-- The records of a LIBRARY payload. -/
def libraryOf (p : Bytes) : Option (List (Nat × Nat)) := parseLibrary (p.length / 16) p

/-- Whether a section stands to Table 13.4. -/
def sectionOk (x : Nat × Bytes) : Bool :=
  match x.1 with
  | 1 => (entriesOf 16 x.2).all fun e => fieldAt e 4 4 = 0
  | 2 => actSectionOk x.2
  | 3 => certSectionOk x.2
  | 4 => revokeSectionOk x.2
  | 5 => decide (x.2.length = 32 * 4096)
  | 6 => (libraryOf x.2).isSome
  | _ => false

/-- The payloads of the sections of a type. -/
def payloads (l : List (Nat × Bytes)) (typ : Nat) : List Bytes :=
  l.filterMap fun x => if x.1 = typ then some x.2 else none

/-- Whether a list of numbers repeats none. -/
def distinct (l : List Nat) : Bool := decide (l.eraseDups.length = l.length)

/-- The library extensions of an image (R382). -/
def librariesOf (l : List (Nat × Bytes)) : List (Nat × Nat) := (payloads l 6).flatMap fun p => (libraryOf p).getD []

/-- Whether the sections of an image stand to R372 and R382. -/
def sectionsOk (l : List (Nat × Bytes)) : Bool :=
  l.all sectionOk && distinct ((payloads l 2).map fun p => fieldAt p 0 1) &&
    distinct ((librariesOf l).map (·.1))

/-- The LOAD entries of an image in order: offset and value. -/
def loadsOf (l : List (Nat × Bytes)) : List (Nat × Nat) :=
  (payloads l 1).flatMap fun p => (entriesOf 16 p).map fun e => (fieldAt e 0 4, fieldAt e 8 8)

/-- The layout that an ACT section gives. -/
def layoutOf (p : Bytes) : ActLayout :=
  { act := fieldAt p 0 1, troupe := ((p.drop 16).take (fieldAt p 2 2)).map (·.toNat), statsBase := fieldAt p 8 8 }

/-! What an image sets. -/

/-- The acts' layouts and the LOAD entries of an image take effect (R372, R373). -/
def State.loadImage (s : State) (l : List (Nat × Bytes)) : State :=
  let acts := (payloads l 2).map layoutOf
  let s := { s with acts := acts }
  let s := s.each acts fun a s => s.setFld (Reg.sckAct a.act) Fld.sckActEnabled 1
  s.each (loadsOf l) fun e s => s.load e.1 e.2

/-- The certificates, the revocation list and the library of an image. -/
def State.stageTrust (s : State) (l : List (Nat × Bytes)) : State :=
  let roots := (payloads l 3).getLastD []
  let revoked := ((payloads l 4).flatMap (entriesOf 24)).map fun e => bytesAt e 4 (fieldAt e 0 1)
  let s := { s with trust := { roots := roots, revoked := revoked, library := librariesOf l } }
  s.setFld Reg.fabCrypto Fld.fabCryptoRootLoaded (b2n (!roots.isEmpty))

/-! The consistency checks of R374, on the registers as the image would leave them. -/

/-- Whether two doorbell ranges overlap. -/
def rangesMeet (a b : Nat × Nat) : Bool := decide (a.1 < b.1 + b.2) && decide (b.1 < a.1 + a.2)

/-- The doorbell ranges of an act in use (R223). -/
def State.doorRanges (s : State) (a : Nat) : List (Nat × Nat) :=
  ((List.range 4).map fun r => (s.fld (Reg.qmActRange a r) Fld.qmActRangeFirstPage,
    s.fld (Reg.qmActRange a r) Fld.qmActRangePages)).filter fun p => p.2 ≠ 0

/-- The doorbell ranges of different acts do not overlap. -/
def State.doorsOk (s : State) : Bool :=
  (List.range 9).all fun a => (List.range a).all fun b =>
    (s.doorRanges a).all fun x => (s.doorRanges b).all fun y => !rangesMeet x y

/-- Each cue range and each Table Store OWNER names an enabled act. -/
def State.ownersOk (s : State) : Bool :=
  ((List.range 512).all fun e => decide (s.fld (Reg.cueCtl e) Fld.cueCtlAct ≤ 8) &&
    s.actEnabled (s.fld (Reg.cueCtl e) Fld.cueCtlAct)) &&
  (List.range 36).all fun n => decide (s.fld (Reg.tsSlot n) Fld.tsSlotOwner ≤ 8) &&
    s.actEnabled (s.fld (Reg.tsSlot n) Fld.tsSlotOwner)

/-- Every near window lies within near memory. -/
def State.nearOk (s : State) : Bool :=
  (List.range 8).all fun i => (List.range 8).all fun w =>
    let k := Reg.memWin (i + 1) w
    let n := s.fld k Fld.memWinSizeGib
    n = 0 || decide ((s.fld k Fld.memWinBaseGib + n) * 2 ^ 30 ≤ nearSize)

/-- The far windows of the Playbill: port, base and size in GiB. -/
def State.farWindows (s : State) : List (Nat × Nat × Nat) :=
  ((List.range 4).flatMap fun p => (List.range 8).map fun i =>
    (p, s.fld (Reg.farWin p (i + 1)) Fld.farWinBaseGib, s.fld (Reg.farWin p (i + 1)) Fld.farWinSizeGib)).filter
      fun w => w.2.2 ≠ 0

/-- Every far window lies on a bonded port and within the 8 TiB of a port. -/
def State.farOk (s : State) : Bool := s.farWindows.all fun w => s.farBonded w.1 && decide (w.2.1 + w.2.2 ≤ 8192)

/-- The enabled cores of a die. -/
def State.dieCores (s : State) (d : Nat) : Nat := ((List.range 26).filter fun i => s.fuse.enabled.getLsbD (26 * d + i)).length

/-- The troupe of each act fits the grade. -/
def State.troupesOk (s : State) : Bool :=
  s.acts.all fun l => (List.range 8).all fun d => decide ((l.troupe.filter fun h => h = d).length ≤ s.dieCores d)

/-- ROOT requires SOURCE 1 or 2. -/
def State.rootOk (s : State) : Bool :=
  !s.flag Reg.sckCtl Fld.sckCtlRoot || s.fld Reg.sckCtl Fld.sckCtlSource = 1 || s.fld Reg.sckCtl Fld.sckCtlSource = 2

/-- The consistency checks of R374. -/
def State.layoutOk (s : State) : Bool :=
  s.doorsOk && s.ownersOk && s.nearOk && s.farOk && s.troupesOk && s.rootOk && s.actEnabled s.headline

/-! A slot. -/

/-- The flash address of Playbill slot A or B. -/
def slotBase (slot : Nat) : Nat := if slot = 0 then 0x2000000 else 0x2800000

/-- LENGTH of a slot's image. -/
def State.slotLength (s : State) (slot : Nat) : Nat := ofLe (s.flashRead (slotBase slot + 12) 4)

/-- SEQ of a slot's image. -/
def State.slotSeq (s : State) (slot : Nat) : Nat := ofLe (s.flashRead (slotBase slot + 8) 4)

/-- The key slot of a slot's image. -/
def State.slotKeySlot (s : State) (slot : Nat) : Nat := ofLe (s.flashRead (slotBase slot + 17) 1)

/-- The sections of a slot's image. -/
def State.slotSections (s : State) (slot : Nat) : Option (List (Nat × Bytes)) :=
  parseSections (ofLe (s.flashRead (slotBase slot + 18) 2)) (s.flashRead (slotBase slot + 64) (s.slotLength slot - 64))

/-- Whether MAGIC, FORMAT and LENGTH are right (Table 13.3). -/
def State.slotMagic (s : State) (slot : Nat) : Bool :=
  let n := s.slotLength slot
  decide (ofLe (s.flashRead (slotBase slot) 4) = 0x50420001) && decide (ofLe (s.flashRead (slotBase slot + 4) 4) = 1) &&
    decide (n % 16 = 0) && decide (64 ≤ n) && decide (n ≤ 2 ^ 23 - 256)

/-- Whether a public key hashes to a fused key slot that is valid and not revoked (R371, R398). -/
def State.keyOk (s : State) (slot : Nat) (key : Bytes) : Bool :=
  decide (slot < 4) && s.fuse.keyValid.getLsbD slot && !s.fuse.keyRevoked.getLsbD slot &&
    decide (s.fuse.keyHash[slot]? = some (leBytes 48 (Config.sha384 key).toNat))

/-- The failure codes of Table 13.5 that apply to a slot, FLASH aside (R371 to R374). -/
def State.slotCodes (s : State) (slot : Nat) : List Nat :=
  if !s.slotMagic slot then [1]
  else
    let b := slotBase slot
    let n := s.slotLength slot
    let key := s.flashRead (b + n) 97
    let grades := ofLe (s.flashRead (b + 16) 1)
    let spare := !zeros (s.flashRead (b + 20) 44) || decide (4 ≤ grades) || !zeros (s.flashRead (b + n + 97) 15) ||
      !zeros (s.flashRead (b + n + 208) 48)
    let code (ok : Bool) (c : Nat) : List Nat := if ok then [] else [c]
    code (s.keyOk (s.slotKeySlot slot) key) 2 ++
      code (Config.ecdsaOk key (s.flashRead b n) (s.flashRead (b + n + 112) 48) (s.flashRead (b + n + 160) 48)) 3 ++
      code (bit grades (s.fuse.grade - 1)) 4 ++ code (!spare) (Config.playbillReserved.toNat + 1) ++
      match s.slotSections slot with
      | none => [5]
      | some l =>
        if l = [] ∨ sectionsOk l = false then [5]
        else code ((loadsOf l).all fun e => loadOk e.1 e.2) 6 ++ code (State.loadImage { State.reset with fuse := s.fuse } l).layoutOk 7

/-- The code recorded for a slot, 0 for a valid one; a read error of the flash is code 8 (R374, Table 13.5). Where several
apply, which is recorded is open (log 93). -/
def State.slotCode (s : State) (slot : Nat) (err : Bool) : Nat :=
  let l := (if err then [8] else []) ++ s.slotCodes slot
  if l = [] then 0 else (l[Config.playbillPick l % l.length]?).getD 1

end Sys2Proof.Machine
end

