-- ==== Sys2Proof/Machine/Power.lean ====
section
/-! DEFINITION. Rails and temperature (R356, R357), power states and the power cap (R365, R388, R389), and reset (R366,
R367). How often a rail, a sensor or the power is sampled is for who sends the commands to keep (log 85). -/

namespace Sys2Proof.Machine

/-! Rails. -/

/-- Nominal voltage of a rail in mV, and its warning and trip limits in per cent (Table 12.5); VIN has its own limits. -/
def railLimits (r : Nat) : Nat × Nat × Nat :=
  if r = 0 then (54000, 0, 0)
  else if r ≤ 8 then (750, 4, 8)
  else match r with
    | 9 => (800, 4, 8)
    | 10 => (1050, 4, 8)
    | 11 => (700, 4, 8)
    | 12 => (900, 3, 6)
    | _ => (3300, 5, 10)

/-- How far a voltage lies from nominal. -/
def offNominal (nom mv : Nat) : Nat := (nom - mv) + (mv - nom)

/-- Whether a sample lies beyond the rail's warning limit. -/
def railWarns (r mv : Nat) : Bool :=
  let l := railLimits r
  if r = 0 then decide (mv < 46000) || decide (61000 < mv) else decide (l.2.1 * l.1 < 100 * offNominal l.1 mv)

/-- Whether a sample lies beyond the rail's trip limit. -/
def railTrips (r mv : Nat) : Bool :=
  let l := railLimits r
  if r = 0 then decide (mv < 44000) || decide (62500 < mv) else decide (l.2.2 * l.1 < 100 * offNominal l.1 mv)

/-- A run of samples that goes on or ends. -/
def runOn (l : List (Nat × Nat)) (r : Nat) (on : Bool) : List (Nat × Nat) :=
  if on then Sparse.put l r (Sparse.get 0 l r + 1) else Sparse.del l r

/-- The module goes DOWN: PWR_OK falls, the black box is flushed, the rails turn off until VIN is cycled (R389). -/
def State.powerDown (s : State) : State :=
  State.setFld { s with power := { s.power with pwrOk := false, running := false, stage := 0, cappedSince := none } }
    Reg.pwrStatus Fld.pwrStatusState 4

/-- RAIL_SAMPLE: the 100th sample in a row beyond the warning limit raises WARN, the third beyond the trip limit raises
TRIP and loses the module (R356, R389). -/
def State.railSample (s : State) (r mv : Nat) : State :=
  if s.alive = false then s
  else
    let s := s.setFld (Reg.netRail r) Fld.netRailMv (min mv 65535)
    let s := { s with railRuns := runOn s.railRuns r (railWarns r mv), railOver := runOn s.railOver r (railTrips r mv) }
    let s := if Sparse.get 0 s.railRuns r = 100 then (s.setFld (Reg.netRail r) Fld.netRailWarn 1).moduleFault 3 1 else s
    if Sparse.get 0 s.railOver r = 3 then (s.setFld (Reg.netRail r) Fld.netRailTrip 1).moduleLost.powerDown else s

/-! Temperature. -/

/-- The level of a sensor, in 1/16 °C, from its last level (Table 12.6). -/
def tempLevel (old : Nat) (t : Int) : Nat :=
  if old = 3 ∨ 115 * 16 ≤ t then 3
  else if 105 * 16 ≤ t ∨ (old = 2 ∧ 100 * 16 < t) then 2
  else if 95 * 16 ≤ t ∨ (1 ≤ old ∧ 90 * 16 < t) then 1
  else 0

/-- TEMP_SAMPLE (R357, R389). A sensor that passes WARN and THROTTLE in one sample reports both. -/
def State.tempSample (s : State) (t : Nat) (temp : Int) : State :=
  if s.alive = false then s
  else
    let k := Reg.netTemp t
    let old := s.fld k Fld.netTempLevel
    let new := tempLevel old temp
    let s := (s.setFld k Fld.netTempTemp (temp % 65536).toNat).setFld k Fld.netTempLevel new
    let s := if old < 1 ∧ 1 ≤ new then s.moduleFault 4 1 else s
    let s := if old < 2 ∧ 2 ≤ new then s.moduleFault 5 2 else s
    if old < 3 ∧ new = 3 then ((s.bbxFreeze 2).moduleLost).powerDown else s

/-! The power cap. -/

/-- THROTTLE_ADJUST: the averages of the last millisecond and the k that the module chose (R388, Tables 14.2, 14.10). -/
def State.throttleAdjust (s : State) (mv ma w1 w100 k : Nat) : State :=
  if s.alive = false then s
  else
    let s := (s.setFld Reg.pwrInput Fld.pwrInputMv mv).setFld Reg.pwrInput Fld.pwrInputMa ma
    let s := (s.setFld Reg.pwrPower Fld.pwrPowerWatts1ms w1).setFld Reg.pwrPower Fld.pwrPowerWatts100ms w100
    let s := s.setFld Reg.pwrPower Fld.pwrPowerPeak (max w1 (s.fld Reg.pwrPower Fld.pwrPowerPeak))
    let s := (s.addWrap Reg.pwrEnergy Fld.pwrEnergyMj w1).setFld Reg.pwrStatus Fld.pwrStatusThrottleK k
    let capped := decide (s.fld Reg.pwrStatus Fld.pwrStatusState = 3)
    if k ≠ 0 then
      State.setFld { s with power := { s.power with cappedSince := none } } Reg.pwrStatus Fld.pwrStatusState 3
    else if capped then
      match s.power.cappedSince with
      | none => { s with power := { s.power with cappedSince := some s.now } }
      | some t =>
        if t + 100000000 ≤ s.now then
          State.setFld { s with power := { s.power with cappedSince := none } } Reg.pwrStatus Fld.pwrStatusState 2
        else s
    else s

/-! Reset and the rails' sequence. -/

/-- Every block of the module as reset leaves it: the fuses, the flash, host memory, the far-memory devices and what
has left the module stay, the Safety Net's map starts from the fuses (R367; log 87). -/
def State.blocksReset (s : State) : State :=
  { State.reset with fuse := s.fuse, flash := s.flash, host := s.host, far := s.far, farPoison := s.farPoison,
                     out := s.out, free := s.free, pending := s.pending, power := s.power }

/-- The module is held in reset. -/
def State.holdReset (s : State) (rstN : Bool) : State :=
  let s := s.blocksReset
  { s with power := { s.power with rstN := rstN, inReset := true, halted := false, cappedSince := none, warnAt := none } }

/-- RST_N_ASSERT: every block resets at once; the rails stay up (R367). -/
def State.rstAssert (s : State) : State :=
  let st := s.fld Reg.pwrStatus Fld.pwrStatusState
  let s := s.holdReset false
  if s.power.pwrOk then s else s.setFld Reg.pwrStatus Fld.pwrStatusState st

/-- REBOOT: 0xB007 has the effect of a pulse on RST_N (R367, Table 13.10). -/
def State.reboot (s : State) (val : Nat) : State := if s.bootOk ∧ val % 65536 = 0xB007 then s.holdReset true else s

/-- A new nonce in PRB.CHALLENGE (R398; log 34). -/
def State.newChallenge (s : State) : State :=
  State.drawn (s.each (List.range 4) fun k t => t.setReg (Reg.prbChallenge k) (bits (Config.nonce s.free).toNat (64 * k) 64))

/-- RESET_RELEASE: RST_N is high and PWR_OK stands; the Show Clock starts at 0 and PHASE reads 1 (R366, Table 1.7). The
debug-unlock nonce is new (R398). -/
def State.resetRelease (s : State) : State :=
  if s.power.inReset ∧ s.power.pwrOk then
    let s := { s with now := 0, power := { s.power with rstN := true, inReset := false } }
    let s := (s.setFld Reg.topState Fld.topStatePhase 1).setFld Reg.topState Fld.topStateXlinkOk 1
    s.newChallenge
  else s

/-- Begins the rail sequence (R365). -/
def State.sequenceStart (s : State) : State :=
  State.setFld { s with power := { s.power with running := true, stage := 1 } } Reg.pwrStatus Fld.pwrStatusState 1

/-- VIN_QUALIFIED: VIN has been above 46.0 V for 10 ms (R365). -/
def State.vinQualified (s : State) : State :=
  if s.power.vinOk then s
  else State.sequenceStart { s with power := { s.power with vinOk := true, failures := 0 } }

/-- RAIL_REGULATED: the rail of an order is in regulation; the next starts, or PWR_OK is asserted (R365, Table 13.1). -/
def State.railRegulated (s : State) (order : Nat) : State :=
  if s.power.running ∧ s.power.stage = order then
    if order < 6 then { s with power := { s.power with stage := order + 1 } }
    else
      State.setFld { s with power := { s.power with running := false, pwrOk := true } } Reg.pwrStatus Fld.pwrStatusState 2
  else s

/-- RAIL_SEQUENCE_FAIL: a rail was not in regulation after 2 ms; all rails turn off (R365). -/
def State.sequenceFail (s : State) : State :=
  if s.power.running then
    { s with power := { s.power with running := false, stage := 0, failures := s.power.failures + 1 } }
  else s

/-- RAIL_RETRY: once, 1 s after the first failure (R365). -/
def State.railRetry (s : State) : State :=
  if s.power.vinOk ∧ s.power.running = false ∧ s.power.pwrOk = false ∧ s.power.failures = 1 ∧ s.power.stage = 0 then
    s.sequenceStart
  else s

/-- VIN_LOSS: the module is OFF, and nothing of it is left but fuses and flash (Table 14.2). -/
def State.vinLoss (s : State) : State :=
  let s := s.holdReset s.power.rstN
  { s with power := { s.power with vinOk := false, stage := 0, running := false, failures := 0, pwrOk := false } }

/-! Meanings. -/

/-- RAIL_SAMPLE. -/
def execRailSample (r mv : Nat) (s : State) : Host.Outcome State Fault Refusal :=
  whenUnits s (okRail r) (s.railSample r mv)
/-- TEMP_SAMPLE. -/
def execTempSample (t : Nat) (temp : Int) (s : State) : Host.Outcome State Fault Refusal :=
  whenUnits s (okTemp t) (s.tempSample t temp)
/-- THROTTLE_ADJUST. -/
def execThrottleAdjust (mv ma watts1ms watts100ms k : Nat) (s : State) : Host.Outcome State Fault Refusal :=
  whenUnits s (okFour k) (s.throttleAdjust mv ma watts1ms watts100ms k)
/-- VIN_QUALIFIED. -/
def execVinQualified (s : State) : Host.Outcome State Fault Refusal := whenUnits s true s.vinQualified
/-- RAIL_REGULATED. -/
def execRailRegulated (order : Nat) (s : State) : Host.Outcome State Fault Refusal :=
  whenUnits s true (s.railRegulated order)
/-- RAIL_SEQUENCE_FAIL. -/
def execRailSequenceFail (s : State) : Host.Outcome State Fault Refusal := whenUnits s true s.sequenceFail
/-- RAIL_RETRY. -/
def execRailRetry (s : State) : Host.Outcome State Fault Refusal := whenUnits s true s.railRetry
/-- VIN_LOSS. -/
def execVinLoss (s : State) : Host.Outcome State Fault Refusal := whenUnits s true s.vinLoss
/-- RESET_RELEASE. -/
def execResetRelease (s : State) : Host.Outcome State Fault Refusal := whenUnits s true s.resetRelease
/-- RST_N_ASSERT. -/
def execRstNAssert (s : State) : Host.Outcome State Fault Refusal := whenUnits s true s.rstAssert
/-- REBOOT. -/
def execReboot (val : Nat) (s : State) : Host.Outcome State Fault Refusal := whenUnits s true (s.reboot val)

end Sys2Proof.Machine
end

