-- ==== Sys2Proof/Machine/Management.lean ====
section
/-! DEFINITION. The management port: its endpoint, sensors, FRU data and firmware update (R394, R395); boundary scan (R396,
R397); the probe pins and their unlocking (R398 to R400). -/

namespace Sys2Proof.Machine

/-! The SMBus port. -/

/-- Whether the port answers: from the end of SEQUENCING until DOWN or OFF (R394). -/
def State.smbOn (s : State) : Bool := s.power.pwrOk

/-- A packet reaches the endpoint, or is dropped on its PEC and counted (R394, Table 14.10). -/
def State.packet (s : State) (pecOk : Bool) (eff : State → State) : State :=
  if !s.smbOn then s else if pecOk then eff s else s.addSat Reg.mgtErr Fld.mgtErrPecDrops 1

/-- SET_ENDPOINT_ID (R394). -/
def State.setEid (s : State) (eid : Nat) (pecOk : Bool) : State :=
  s.packet pecOk fun s => s.setFld Reg.mgtSmb Fld.mgtSmbEid eid

/-- The reading of a sensor, in its register's own code (Table 14.6). -/
def State.sensor (s : State) (id : Nat) : Option Nat :=
  if id = 1 then some (s.fld Reg.pwrInput Fld.pwrInputMv)
  else if id = 2 then some (s.fld Reg.pwrInput Fld.pwrInputMa)
  else if id = 3 then some (s.fld Reg.pwrPower Fld.pwrPowerWatts1ms)
  else if 10 ≤ id ∧ id < 24 then some (s.fld (Reg.netRail (id - 10)) Fld.netRailMv)
  else if 30 ≤ id ∧ id < 40 then some (s.fld (Reg.netTemp (id - 30)) Fld.netTempTemp)
  else if id = 40 ∨ id = 41 then some (Config.coolant (id - 40) s.now).toNat
  else if id = 50 then some s.phase
  else none

/-- The answer to a PLDM request (R394). A sensor's reading takes 4 bytes; how PLDM frames it is DMTF's, not the spec's
(log 96). -/
def State.pldmAnswer (s : State) (m : PldmMsg) : Bytes :=
  match m with
  | .base => Config.pldmBase
  | .sensor id => match s.sensor id with | some v => leBytes 4 v | none => Config.pldmUnknown id
  | .fru => leBytes 8 s.fuse.serial.toNat ++ Config.fruPart ++ leBytes 1 s.fuse.grade ++ Config.fruDate

/-- PLDM_REQUEST. -/
def State.pldmRequest (s : State) (m : PldmMsg) (pecOk : Bool) : State :=
  s.packet pecOk fun s => s.emit (.pldm (s.pldmAnswer m))

/-! Firmware update. -/

/-- The component that is being updated, 0 for none, with MGT.SMB (R395, Table 14.10). -/
def State.setUpdate (s : State) (c : Nat) : State :=
  let s := { s with update := if c = 0 then none else some c }
  (s.setFld Reg.mgtSmb Fld.mgtSmbUpdate (b2n (decide (c ≠ 0)))).setFld Reg.mgtSmb Fld.mgtSmbComponent c

/-- REQUEST_UPDATE: one update at a time holds the bank or slot that is not in use (R395). -/
def State.requestUpdate (s : State) (c : Nat) (pecOk : Bool) : State :=
  s.packet pecOk fun s => if s.update = none ∧ (c = 1 ∨ c = 2) then s.setUpdate c else s

/-- Where an area of the flash begins, and its size (Table 13.2). -/
def areaRange (x : Nat) : Nat × Nat :=
  if x < 2 then (x * 0x1000000, 0x1000000) else (slotBase (x - 2), 0x800000)

/-- COMPONENT_IMAGE_WRITE: data of the image, into the range that the update holds (R395). -/
def State.imageWrite (s : State) (c off : Nat) (data : Bytes) (pecOk : Bool) : State :=
  s.packet pecOk fun s =>
    let r := areaRange (s.updateArea c)
    if s.update = some c ∧ off + data.length ≤ r.2 ∧ s.flashOff = false then s.flashWrite (r.1 + off) data else s

/-- VERIFY_COMPLETE: the image in the held range is checked as a start would check it; the answer is 0 for an image that
passes and 1 for a verify failure (R395; log 96). -/
def State.verifyUpdate (s : State) : State :=
  match s.smbOn, s.update with
  | true, some c =>
    let x := s.updateArea c
    let ok := if c = 1 then s.bankOk x else s.slotCodes (x - 2) = []
    s.emit (.pldm [if ok then 0 else 1])
  | _, _ => s

/-- ACTIVATE_FIRMWARE and CANCEL_UPDATE: the update ends and its range is free (R395). -/
def State.endUpdate (s : State) (pecOk : Bool) : State :=
  s.packet pecOk fun s => if s.update.isSome then s.setUpdate 0 else s

/-! Boundary scan. -/

/-- IDCODE of a die of the chain, 0 and 1 the Midways, then the compute dies (R396, Table 14.7). -/
def State.idcode (s : State) (die : Nat) : Nat :=
  let part := if die < 2 then 0x9608 + die else 0x9600 + (die - 2)
  1 + 0x35B * 2 + part * 2 ^ 12 + (s.fuse.stepping / 16) * 2 ^ 28

/-- Whether an instruction drives the pins (R397). -/
def drivesPins (i : TapInstr) : Bool :=
  match i with
  | .extest | .clamp | .highz | .extestPulse | .extestTrain => true
  | .bypass | .idcode | .samplePreload => false

/-- UPDATE_IR: a ready module is lost; an earlier start-up halts until a reset (R397). -/
def State.updateIr (s : State) (i : TapInstr) : State :=
  if drivesPins i = false ∨ s.alive = false then s
  else if s.phase = 6 then s.moduleLost
  else if s.phase < 6 then { s with power := { s.power with halted := true } }
  else s

/-! The debug unlock. -/

/-- Whether the probes are unlocked. -/
def State.unlocked (s : State) : Bool := s.flag Reg.prbStatus Fld.prbStatusUnlocked

/-- The black-box entry of a SUBMIT or of a change of lock state (R398; what it holds, log 95). -/
def State.lockEntry (s : State) (kind : Nat) : State :=
  let e := (Config.lockEntry kind).toNat
  s.bbxWrite s.now (bits e 0 8) (bits e 8 8) 0 1 0xFFFF 0 0 (leBytes 8 (bits e 16 64))

/-- The 288 bytes of PRB.TOKEN. -/
def State.token (s : State) : Bytes := (List.range 36).flatMap fun k => leBytes 8 (s.reg (Reg.prbToken k))

/-- The current challenge. -/
def State.challenge (s : State) : Bytes := (List.range 4).flatMap fun k => leBytes 8 (s.reg (Reg.prbChallenge k))

/-- PRB.STATUS.FAIL for the token: the first check of R398 that fails, 0 for a token that is accepted (Tables 14.8,
14.10). -/
def State.tokenFail (s : State) : Nat :=
  let t := s.token
  let key := bytesAt t 64 97
  if fieldAt t 0 4 ≠ 0x44540001 then 1
  else if fieldAt t 8 8 ≠ s.fuse.serial.toNat then 2
  else if bytesAt t 16 32 ≠ s.challenge then 3
  else if s.keyOk (fieldAt t 4 1) key = false then 4
  else if Config.ecdsaOk key (bytesAt t 0 161) (bytesAt t 176 48) (bytesAt t 224 48) = false then 5
  else 0

/-- SUBMIT, by act 0 (R398). -/
def State.submitToken (s : State) : State :=
  if !s.hostOk 0 || !s.started then s
  else
    let f := s.tokenFail
    let was := s.unlocked
    let s := (s.setFld Reg.prbStatus Fld.prbStatusFail f).lockEntry 0
    let s := if f = 0 then
        let s := (s.setFld Reg.prbStatus Fld.prbStatusUnlocked 1).setReg Reg.prbExpiry (fieldAt s.token 48 8)
        if was then s else s.lockEntry 1
      else s
    s.newChallenge

/-- The probes lock again: the selections are cleared (R398, R400). -/
def State.lockProbes (s : State) : State :=
  if s.unlocked then
    let s := s.setFld Reg.prbStatus Fld.prbStatusUnlocked 0
    (s.each (List.range 8) fun k s => s.setReg (Reg.prbSel k) 0).lockEntry 2
  else s

/-- RELOCK, by act 0 (R398). -/
def State.relock (s : State) : State := if !s.hostOk 0 || !s.started then s else s.lockProbes

/-- UNLOCK_EXPIRY: EXPIRY has passed (R200, R398). -/
def State.unlockExpires (s : State) : State :=
  if s.alive ∧ s.reg Reg.prbExpiry < s.now then s.lockProbes else s

/-- Whether probe pin `k` is high: low while locked (R398), the level of the source that Table 14.9 routes to it otherwise. The
second pulse begins with its second; the divided core clock and the cue pulse are left out (log 97). -/
def State.probe (s : State) (k : Nat) : Bool :=
  let w := s.reg (Reg.prbSel k)
  let i := bits w 8 8
  s.unlocked && match bits w 0 4 with
    | 2 => decide (s.now % 1000000000 < 1000)
    | 4 => decide (i < 208) && (s.ctx i 1).queue.isSome && (s.ctx i 1).state = .issuing
    | 5 => decide (i < 208) && (s.core i).fwd ≠ []
    | 6 => decide (i < 208) && (s.core i).bwd ≠ []
    | 7 => decide (i < 8) && s.inService i
    | 8 => decide (i < 32) && s.fld (Reg.memStk1 i) Fld.memStk1Outstanding ≠ 0
    | _ => false

/-! Meanings. -/

/-- SET_ENDPOINT_ID. -/
def execSetEndpointId (eid : Nat) (pecOk : Bool) (s : State) : Host.Outcome State Fault Refusal :=
  whenUnits s true (s.setEid eid pecOk)
/-- PLDM_REQUEST. -/
def execPldmRequest (msg : PldmMsg) (pecOk : Bool) (s : State) : Host.Outcome State Fault Refusal :=
  whenUnits s true (s.pldmRequest msg pecOk)
/-- REQUEST_UPDATE. -/
def execRequestUpdate (component : Nat) (pecOk : Bool) (s : State) : Host.Outcome State Fault Refusal :=
  whenUnits s (okFour component) (s.requestUpdate component pecOk)
/-- COMPONENT_IMAGE_WRITE. -/
def execComponentImageWrite (component off : Nat) (data : Bytes) (pecOk : Bool) (s : State) :
    Host.Outcome State Fault Refusal :=
  whenUnits s (okFour component) (s.imageWrite component off data pecOk)
/-- VERIFY_COMPLETE. -/
def execVerifyComplete (s : State) : Host.Outcome State Fault Refusal := whenUnits s true s.verifyUpdate
/-- ACTIVATE_FIRMWARE: what was written takes effect at the next reset. -/
def execActivateFirmware (pecOk : Bool) (s : State) : Host.Outcome State Fault Refusal :=
  whenUnits s true (s.endUpdate pecOk)
/-- CANCEL_UPDATE. -/
def execCancelUpdate (pecOk : Bool) (s : State) : Host.Outcome State Fault Refusal := whenUnits s true (s.endUpdate pecOk)
/-- UPDATE_IR. -/
def execUpdateIr (die : Nat) (instr : TapInstr) (s : State) : Host.Outcome State Fault Refusal :=
  whenUnits s (okDie die) (s.updateIr instr)
/-- SUBMIT. -/
def execSubmit (s : State) : Host.Outcome State Fault Refusal := whenUnits s true s.submitToken
/-- RELOCK. -/
def execRelock (s : State) : Host.Outcome State Fault Refusal := whenUnits s true s.relock
/-- UNLOCK_EXPIRY. -/
def execUnlockExpiry (s : State) : Host.Outcome State Fault Refusal := whenUnits s true s.unlockExpires

end Sys2Proof.Machine
end

