-- ==== Sys2Proof/Machine/MemFaults.lean ====
section
/-! DEFINITION. Errors in memory: corrected and uncorrectable reads (R177 to R179, R187), a stack that is lost (R343,
R344), and far requests that complete, come back poisoned or time out (R190, R346). -/

namespace Sys2Proof.Machine

/-! Poison. -/

/-- The acts a near address belongs to: those with a window over it. -/
def State.nearActs (s : State) (a : Nat) : List Nat := s.enabledActs.filter fun k => s.nearWindow k a 1 false

/-- Records a poison mark's creation in MEM.UE and writes the NUMERIC event (R187, Table 6.7): to the act that reads, with the tag
of its bundle (R135), or as a condition of the device to act 0 and the acts whose windows hold the address (log 69). -/
def State.poisonCreated (s : State) (level unit addr : Nat) (by_ : Option Xfer) : State :=
  let s := if s.flag Reg.memUe Fld.memUeValid then s
    else (((s.setFld Reg.memUe Fld.memUeValid 1).setFld Reg.memUe Fld.memUeLevel level).setFld Reg.memUe
      Fld.memUeUnit unit).setFld Reg.memUe Fld.memUeAddr addr
  match by_ with
  | some t => s.event (EvRec.by_ t.ctx t.off t.tag (plainRec 0x06 (openSeverity 0x06 0x20) 0x20 t.act s.now
      (openPayload 0x06 0x20 t.act s.now)))
  | none => s.broadcast (if level = 0 then s.nearActs addr else []) (plainRec 0x06 (openSeverity 0x06 0x20) 0x20 0 s.now
      (openPayload 0x06 0x20 0 s.now))

/-- Entries of a list of (stamp, count) that lie within the last second, and their sum. -/
def lastSecond (now : Nat) (l : List (Nat × Nat)) : List (Nat × Nat) := l.filter fun p => decide (now < p.1 + 1000000000)

/-- The sum of the counts. -/
def countSum (l : List (Nat × Nat)) : Nat := l.foldl (fun a p => a + p.2) 0

/-! Stacks. -/

/-- Whether stack `t` is trained and in service. -/
def State.stackUp (s : State) (t : Nat) : Bool := bit (s.fld Reg.memStackOk Fld.memStackOkMap) t

/-- The near ranges that the Playbill or a register loaded from it names, as (base, length) (R344). -/
def State.playbillRanges (s : State) : List (Nat × Nat) :=
  let gib := 2 ^ 30
  let wins := (List.range 8).flatMap fun a => (List.range 8).map fun w =>
    (s.fld (Reg.memWin (a + 1) w) Fld.memWinBaseGib * gib, s.fld (Reg.memWin (a + 1) w) Fld.memWinSizeGib * gib)
  let cars := s.enabledActs.flatMap fun a =>
    [(s.fld (Reg.carTable a) Fld.carTableAddr, 64 * 65536), (s.fld (Reg.carHp a) Fld.carHpAddr, 64 * 16),
     (s.fld (Reg.carScratch a) Fld.carScratchAddr, s.fld (Reg.carScratchSize a) Fld.carScratchSizeMib * 2 ^ 20)]
  let areas := (List.range 4).filterMap fun i =>
    if s.fld (Reg.netArea i) Fld.netAreaSpace = 0 then some (s.fld (Reg.netArea i) Fld.netAreaAddr, 1) else none
  let regions := (List.range 8).map fun j =>
    (s.fld (Reg.netCkptRegion j) Fld.netCkptRegionAddr, s.fld (Reg.netCkptRegion j) Fld.netCkptRegionSizeMib * 2 ^ 20)
  (wins ++ cars ++ areas ++ regions ++ s.acts.map fun (l : ActLayout) => (l.statsBase, 16 * 4096)).filter fun p => p.2 ≠ 0

/-- Whether the act fits when stack `t`'s die runs on three stacks (R344). -/
def State.fitsWithout (s : State) (t : Nat) : Bool :=
  s.playbillRanges.all fun p => !rangesHit p (t / 4 * dieRange + dieKept, dieRange - dieKept)

/-- A stack is lost (R343, R344): the first one leaves its die on three stacks when everything fits, every unit of the
die's remaining range is marked until it is written, and a running module asks for a rollback; otherwise the module is
lost. -/
def State.loseStack (s : State) (t : Nat) : State :=
  if s.stackUp t = false then s
  else
    let first := s.stackLost.isNone
    let s := s.setFld Reg.memStackOk Fld.memStackOkMap (s.fld Reg.memStackOk Fld.memStackOkMap - 2 ^ t)
    if first && s.fitsWithout t then
      let s := { s with stackLost := some t
                        nearPoison := s.nearPoison.filter fun p => p.1 * 64 / dieRange ≠ t / 4 }
      if s.phase = 6 then s.emit .rollbackRequest else s
    else s.moduleLost

/-- Symbols corrected on DRAM die `d` of stack `t`: counted; the die is marked erased when 4,096 or more fall within a
second; a second such die loses the stack (R177, R343). -/
def State.corrections (s : State) (t d n : Nat) : State :=
  if n = 0 ∨ 20 ≤ d then s
  else
    let s := s.addOpen (Reg.memStk0 t) Fld.memStk0CeCount n
    let l := lastSecond s.now (Sparse.get [] s.dieErrs (32 * t + d)) ++ [(s.now, n)]
    let s := { s with dieErrs := Sparse.put s.dieErrs (32 * t + d) l }
    if countSum l < 4096 then s
    else if s.flag (Reg.memStk0 t) Fld.memStk0Erased = false then
      (s.setFld (Reg.memStk0 t) Fld.memStk0ErasedDie d).setFld (Reg.memStk0 t) Fld.memStk0Erased 1
    else if s.fld (Reg.memStk0 t) Fld.memStk0ErasedDie = d then s
    else s.loseStack t

/-- An uncorrectable read of near unit `u` on stack `t`: a poison mark; 256 of them within a second lose the stack
(R177, R187, R343). -/
def State.nearBad (s : State) (t u : Nat) : State :=
  let s := (s.markMem .near (64 * u) 64).addSat (Reg.memStk0 t) Fld.memStk0UeCount 1
  let s := s.poisonCreated 0 t (64 * u) none
  let l := lastSecond s.now (Sparse.get [] s.stackReads t) ++ [(s.now, 1)]
  let s := { s with stackReads := Sparse.put s.stackReads t l }
  if 256 ≤ countSum l then s.loseStack t else s

/-- Whether a codeword of stack `t` with wrong symbols can be corrected: two of them, or, once a die is erased, one beside
that die's (R177). -/
def State.correctable (s : State) (t : Nat) (dies : List Nat) : Bool :=
  if s.flag (Reg.memStk0 t) Fld.memStk0Erased then
    decide ((dies.filter (· ≠ s.fld (Reg.memStk0 t) Fld.memStk0ErasedDie)).length ≤ 1)
  else decide (dies.length ≤ 2)

/-- A read of codewords of stack `t` with errors: each that can be corrected has its symbols counted, and each unit with one
that cannot is poisoned once (R177). -/
def State.codeErrors (s : State) (t : Nat) (errors : List CodeErr) : State :=
  let l := errors.map fun e => (e.unit, (e.dies.filter (· < 20)).eraseDups)
  let bad := (l.filter fun e => !s.correctable t e.2).map (·.1)
  let s := s.each (l.filter fun e => s.correctable t e.2) fun e s => s.each e.2 fun d s => s.corrections t d 1
  s.each bad.eraseDups fun u s => s.nearBad t u

/-- NEAR_REQUEST: a request of up to 1,024 bytes within one 4 KiB interleave unit, with the codewords in error that a read
meets; it waits at its source while the controller holds 512 (R176, R177). -/
def State.nearServe (s : State) (a n : Nat) (write : Bool) (errors : List CodeErr) : State :=
  let t := s.stackOf a
  if 1 ≤ n ∧ n ≤ 1024 ∧ a / 4096 = (a + n - 1) / 4096 ∧ a + n ≤ nearSize ∧ s.nearAbsent a n = false ∧
      s.stackUp t = true ∧ s.fld (Reg.memStk1 t) Fld.memStk1Outstanding < 512 then
    let s := s.takeRequests t 1
    if write then s
    else s.codeErrors t (errors.filter fun e => decide (a / 64 ≤ e.unit) && decide (e.unit ≤ (a + n - 1) / 64))
  else s

/-- PATROL_SCRUB: a whole stack is read and corrected once every SCRUB_HOURS hours; a unit that meets a write in the same
cycle is skipped (R178). -/
def State.scrubStack (s : State) (t : Nat) (errors : List CodeErr) (written : List Nat) : State :=
  let hours := s.fld Reg.memCtl Fld.memCtlScrubHours
  if hours ≠ 0 ∧ s.stackUp t = true ∧ Sparse.get 0 s.scrubbed t + hours * 3600000000000 ≤ s.now then
    State.codeErrors { s with scrubbed := Sparse.put s.scrubbed t s.now } t
      (errors.filter fun e => s.stackOf (64 * e.unit) = t && decide (64 * e.unit < nearSize) && !written.contains e.unit)
  else s

/-! The die buffer. -/

/-- The die-buffer bytes that a transfer reads. -/
def State.dieReads (s : State) (n : Nat) (t : Xfer) : List (Nat × Nat) :=
  (s.xferDescs n t).flatMap fun d =>
    match t.kind with
    | .din => if t.space = 1 then d.extRows else []
    | .dout => if d.lsp then d.localRows else []
    | .drain => []

/-- Single-bit errors of a transfer's die-buffer reads are corrected and counted; an uncorrectable word is marked
(R179, R187). -/
def State.dieErrors (s : State) (n : Nat) (t : Xfer) (fixed : Nat) (bad : List Nat) : State :=
  let l := s.dieReads n t
  if l = [] ∨ s.xferReady n t = false then s
  else
    let d := coreDie n
    let s := s.addOpen (Reg.memDb d) Fld.memDbCeCount fixed
    s.each (bad.filter fun w => l.any fun r => rangesHit r (8 * w, 8)) fun w s =>
      ((s.markMem (.die d) (8 * w) 8).addSat (Reg.memDb d) Fld.memDbUeCount 1).poisonCreated 1 d (8 * w) (some t)

/-! Far ports. -/

/-- The transfer behind a far request, with its core. -/
def State.reqXfer (s : State) (r : FarReq) : Option (Nat × Xfer) :=
  match r.owner with
  | .xfer n i => ((s.core n).xfers.find? fun t => t.idx = i).map fun t => (n, t)
  | .half _ _ | .agent => none

/-- A far request's data came to nothing: its unit is noted with its transfer, or with the half that reads it (R187, R190). -/
def State.farBadUnit (s : State) (r : FarReq) : State :=
  match r.owner with
  | .xfer n i =>
    s.modCore n fun k =>
      { k with xfers := k.xfers.map fun t => if t.idx = i then { t with farBad := t.farBad ++ [r.addr] } else t }
  | .half key e => s.modBucket key fun b => if b.reads e then { b with farBad := b.farBad ++ [(e, r.addr)] } else b
  | .agent => s

/-- What a far request's end lets go on: its core makes progress, or the half whose reads are all answered is updated. -/
def State.farEnded (s : State) (r : FarReq) : State :=
  match r.owner with
  | .xfer n _ => s.stirred n
  | .half key e => s.settleHalf key e
  | .agent => s

/-- Takes request `i` off port `p`; a transfer that waits to makes its next ones (R190). -/
def State.dropReq (s : State) (p i : Nat) : State :=
  State.farPumpAll (State.showOutst { s with farReqs := Sparse.put s.farReqs p ((Sparse.get [] s.farReqs p).eraseIdx i) } p) p

/-- FAR_COMPLETION: a completion on time ends its request; a poisoned read response poisons its destination (R187,
R190). A late one is discarded. -/
def State.farComplete (s : State) (p i : Nat) (poison : Bool) : State :=
  match (Sparse.get [] s.farReqs p)[i]? with
  | none => s
  | some r =>
    if r.deadline < s.now then s
    else
      let s := if poison && !r.write then
          ((s.farBadUnit r).addSat (Reg.farErr p) Fld.farErrPoisonCount 1).poisonCreated 2 p r.addr ((s.reqXfer r).map (·.2))
        else s
      (s.dropReq p i).farEnded r

/-- Whether a bucket table entry of an enabled act names far port `p` as MSP0 or MSP1 (R346). -/
def State.tableNames (s : State) (p : Nat) : Bool :=
  s.enabledActs.any fun a =>
    let base := s.fld (Reg.carTable a) Fld.carTableAddr
    s.near.any fun c =>
      decide (base ≤ c.1) && decide (c.1 < base + 64 * 65536) &&
        ((c.1 - base) % 64 = 14 || (c.1 - base) % 64 = 22) && c.2.toNat % 8 = 4 + p

/-- A FAULT event of the Safety Net, with a status that the spec leaves open (log 72), to act 0 and the acts it affects. -/
def State.faultEvent (s : State) (kind severity : Nat) (acts : List Nat) : State :=
  let st := (openStatus (Config.faultStatus kind))
  s.broadcast acts (plainRec 0x0C severity st 0 s.now (openPayload 0x0C st kind s.now))

/-- A DEGRADED far port leaves service: one FAULT event, and the module is lost when a bucket table names it (R346). -/
def State.farOut (s : State) (p : Nat) : State :=
  if s.farDown p then s
  else
    let s := s.setFld (Reg.farStatus p) Fld.farStatusDegraded 1
    let acts := s.enabledActs.filter fun a => s.reg (Reg.farWin p a) ≠ 0
    let s := s.faultEvent 1 (openSeverity 0x0C (openStatus (Config.faultStatus 1))) acts
    if s.tableNames p then s.moduleLost else s

/-- FAR_REQUEST_TIMEOUT: 100 µs after it left, a request is given up: its data is poisoned, its bundle reports
DEADLINE_MISSED, and sixteen on a port within a second set DEGRADED (R190). -/
def State.farTimeout (s : State) (p i : Nat) : State :=
  match (Sparse.get [] s.farReqs p)[i]? with
  | none => s
  | some r =>
    if s.now ≤ r.deadline then s
    else
      let t := s.reqXfer r
      let s := (s.farBadUnit r).addSat (Reg.farErr p) Fld.farErrTimeoutCount 1
      let s := if r.write then s.markMem (.far p) r.addr 64 else s
      let s := s.poisonCreated 2 p r.addr (t.map (·.2))
      let s := match t with
        | some (n, t) =>
          if s.stillBound n t.ctx then
            (s.ctxEvent n t.ctx 0x09 0x40 t.off t.tag (openPayload 0x09 0x40 t.act s.now)).note n t.ctx 0x40 t.off t.tag
          else s
        | none => s
      let l := (Sparse.get [] s.farTimeouts p).filter (fun (x : Nat) => decide (s.now < x + 1000000000)) ++ [s.now]
      let s := { s with farTimeouts := Sparse.put s.farTimeouts p l }
      ((if 16 ≤ l.length then s.farOut p else s).dropReq p i).farEnded r

/-! Meanings. -/

/-- TRANSFER_DONE, with what its reads of the buffers met. -/
def execTransferDone (core ctx idx : Nat) (how : BufIn) (dieBad : List Nat) (s : State) :
    Host.Outcome State Fault Refusal :=
  whenUnits s (okCore core && okCtx ctx)
    (match (s.ctxXfers core ctx).find? fun t => t.idx = idx with
      | some t => (s.dieErrors core t how.dieFixed dieBad).xferDone core t how.ue
      | none => s)
/-- NEAR_REQUEST. -/
def execNearRequest (addr len : Nat) (write : Bool) (errors : List CodeErr) (s : State) :
    Host.Outcome State Fault Refusal :=
  whenUnits s true (s.nearServe addr len write errors)
/-- PATROL_SCRUB. -/
def execPatrolScrub (stack : Nat) (errors : List CodeErr) (written : List Nat) (s : State) :
    Host.Outcome State Fault Refusal :=
  whenUnits s (okStack stack) (s.scrubStack stack errors written)
/-- FAR_COMPLETION. -/
def execFarCompletion (port idx : Nat) (poison : Bool) (s : State) : Host.Outcome State Fault Refusal :=
  whenUnits s (okFour port) (s.farComplete port idx poison)
/-- FAR_REQUEST_TIMEOUT. -/
def execFarRequestTimeout (port idx : Nat) (s : State) : Host.Outcome State Fault Refusal :=
  whenUnits s (okFour port) (s.farTimeout port idx)
/-- STACK_INTERFACE_LOSS. -/
def execStackInterfaceLoss (stack : Nat) (s : State) : Host.Outcome State Fault Refusal :=
  whenUnits s (okStack stack) (s.loseStack stack)

end Sys2Proof.Machine
end

