-- ==== Sys2Proof/Machine/Recovery.lean ====
section
/-! DEFINITION. The Safety Net and the cores: the watchdog (R336), a fenced core's transfers (R338), the test of a spare
(R339), the RECOVER stream (R340), doubled cores (R341), RETEST (R358), and the errors that lose the module (R17, R335). -/

namespace Sys2Proof.Machine

/-! The watchdog. -/

/-- Whether a context is ISSUING or in WAIT_SLOT (Table 5.14, R336): it has a bundle to issue or an open one, and no
semaphore, copy queue, cue, fence, fetch or library microcode holds it. -/
def State.ctxWatched (s : State) (n x : Nat) : Bool :=
  let c := s.ctx n x
  c.queue.isSome && c.wait.isNone && c.cueWait.isNone && !s.waitsRecv n x &&
    (if c.cur.isSome then c.state ≠ .halted && c.lib.isNone
     else s.mayIssue n x && (match s.gate n x with
       | .shut (some st) => st = .waitSlot
       | .shut none => false
       | _ => true))

/-- CORE_WATCHDOG: WDOG_US microseconds without an issue or a completion raise a core fault (R336, R200). -/
def State.watchdog (s : State) (n x : Nat) : State :=
  let since := max (s.ctx n x).lastIssue (s.core n).progressAt
  if s.alive ∧ s.ctxWatched n x ∧ since + s.fld Reg.netCtl Fld.netCtlWdogUs * 1000 < s.now then s.fenceCore n 3 id else s

/-! A fenced core. -/

/-- FENCED_TRANSFER_ABANDON: transfers still running 5 ms after detection are abandoned (R338). -/
def State.abandonXfers (s : State) (n : Nat) : State :=
  match (s.core n).fenceAt with
  | some t => if s.alive ∧ t + 5000000 < s.now then s.modCore n fun k => { k with xfers := [] } else s
  | none => s

/-- Whether some core hosts a logical core. -/
def State.hosted (s : State) (a l : Nat) : Bool := s.cores.any fun p => p.2.logical.contains (a, l)

/-- SPARE_TEST_DONE: a spare that passes takes the logical core that waits for it, if the headline act still wants it;
one that fails is fenced, and the next choice is taken (R339). -/
def State.spareTested (s : State) (n : Nat) (passed : Bool) : State :=
  match (s.core n).testing with
  | some (a, l, d) =>
    if !s.alive then s
    else if passed then
      let qs := (s.core n).recover
      let s := s.modCore n fun k => { k with testing := none, recover := [], lastTest := some s.uptime }
      let s := (s.setFld (Reg.netCore n) Fld.netCoreState 1).countCores
      if a = s.headline ∧ s.hosted a l = false then s.assignCore n a l d qs else s
    else s.fenceCore n 4 id
  | none => s

/-- RECOVER_RESUME: the RECOVER stream loads the record of the next stream that waits on the core; the stream resumes at
the bundle it names (R340). One whose queue has since left RUNNING is left to its queue. -/
def State.recoverResume (s : State) (n : Nat) : State :=
  match (s.core n).recover with
  | q :: rest =>
    if !s.alive || !s.coreRuns n then s
    else if s.streamReady q && s.bindTarget q = some (n, 0) then
      match (s.queue q).entries with
      | e :: _ =>
        if (s.ctx n 0).queue.isNone then (s.modCore n fun k => { k with recover := rest }).bindStream q n 0 e else s
      | [] => s.modCore n fun k => { k with recover := rest }
    else s.modCore n fun k => { k with recover := rest }
  | [] => s

/-- The tick in which the wait of context 0 began. -/
def State.waitSince (s : State) (n : Nat) : Option Nat :=
  let c := s.ctx n 0
  match c.wait, c.cueWait with
  | some w, _ => some w.began
  | none, some w => some w.2
  | none, none => if s.waitsRecv n 0 ∧ c.cur.isNone ∧ c.state ≠ .halted then some c.lastIssue else none

/-- DOUBLED_SWAP_TIMEOUT: a doubled core whose stream has waited SWAP_WAIT × 64 cycles abandons the running interval and
turns to its other logical core (R341). A wait for a message counts from the last issue (log 73). -/
def State.swapDoubled (s : State) (n : Nat) : State :=
  match s.waitSince n with
  | some t =>
    if s.alive ∧ s.otherReady n ∧ s.fld Reg.netCtl Fld.netCtlSwapWait * 40 ≤ s.now - t then
      let s := (s.abandonUnits n 0).modCore n fun k => { k with xfers := k.xfers.filter fun t => t.ctx ≠ 0 }
      (s.dropWaits n 0).switchDoubled n
    else s
  | none => s

/-! RETEST. -/

/-- RETEST: act 0 has a fenced core run its built-in test (R358). -/
def State.retest (s : State) (n : Nat) : State :=
  if s.hostOk 0 && s.started && s.coreState n = 4 then
    (s.setFld (Reg.netCore n) Fld.netCoreState 2).countCores
  else s

/-- RETEST_DONE: a core that passes becomes an idle spare and its register window lives again; one that fails stays
fenced (R31, R338, R358). -/
def State.retestDone (s : State) (n : Nat) (passed : Bool) : State :=
  if s.alive ∧ s.coreState n = 2 ∧ (s.core n).testing = none then
    if passed then
      let s := s.modCore n fun k => { k with fenceAt := none, frozenRegs := [], lastTest := some s.uptime }
      (s.setFld (Reg.netCore n) Fld.netCoreState 1).countCores
    else (s.setFld (Reg.netCore n) Fld.netCoreState 4).countCores
  else s

/-! Meanings. -/

/-- CORE_WATCHDOG. -/
def execCoreWatchdog (core ctx : Nat) (s : State) : Host.Outcome State Fault Refusal :=
  whenUnits s (okCore core && okCtx ctx) (s.watchdog core ctx)
/-- FENCED_TRANSFER_ABANDON. -/
def execFencedTransferAbandon (core : Nat) (s : State) : Host.Outcome State Fault Refusal :=
  whenUnits s (okCore core) (s.abandonXfers core)
/-- SPARE_TEST_DONE. -/
def execSpareTestDone (core : Nat) (passed : Bool) (s : State) : Host.Outcome State Fault Refusal :=
  whenUnits s (okCore core) (s.spareTested core passed)
/-- RECOVER_RESUME. -/
def execRecoverResume (core : Nat) (s : State) : Host.Outcome State Fault Refusal :=
  whenUnits s (okCore core) (s.recoverResume core)
/-- DOUBLED_SWAP_TIMEOUT. -/
def execDoubledSwapTimeout (core : Nat) (s : State) : Host.Outcome State Fault Refusal :=
  whenUnits s (okCore core) (s.swapDoubled core)
/-- CROSS_LINK_ERROR: the cross link leaves service, and the module is lost (R17). -/
def execCrossLinkError (s : State) : Host.Outcome State Fault Refusal :=
  whenUnits s true (if s.alive then (s.setFld Reg.topState Fld.topStateXlinkOk 0).moduleLost else s)
/-- MIDWAY_UE: the module is lost (R335). -/
def execMidwayUe (m : Nat) (s : State) : Host.Outcome State Fault Refusal :=
  whenUnits s (okTwo m) (if s.alive then s.moduleLost else s)
/-- RETEST. -/
def execRetest (core : Nat) (s : State) : Host.Outcome State Fault Refusal :=
  whenUnits s (okCore core) (s.retest core)
/-- RETEST_DONE. -/
def execRetestDone (core : Nat) (passed : Bool) (s : State) : Host.Outcome State Fault Refusal :=
  whenUnits s (okCore core) (s.retestDone core passed)

end Sys2Proof.Machine
end

