-- ==== Sys2Proof/Machine/StartUp.lean ====
section
/-! DEFINITION. The module's start, from leaving reset to READY (R369, R370, R375 to R381, R405). -/

namespace Sys2Proof.Machine

/-- Whether start-up stands in a phase and may go on: boundary scan has not halted it (R397). -/
def State.starting (s : State) (phase : Nat) : Bool := s.alive && !s.power.halted && decide (s.phase = phase)

/-- Start-up enters a phase. -/
def State.enterPhase (s : State) (phase : Nat) : State :=
  State.setFld { s with phaseAt := s.uptime } Reg.topState Fld.topStatePhase phase

/-! DEVICE events. -/

/-- A DEVICE event of act 0 with the fields of Table 13.7 that its kind uses; the others are zero. -/
def State.deviceRec (s : State) (kind severity slot code unit b34 b35 : Nat) (rest : Bytes) : EvRec :=
  plainRec 0x10 severity (openStatus (Config.deviceStatus kind)) 0 s.now
    (padTo 40 (leBytes 1 kind ++ leBytes 1 slot ++ leBytes 1 code ++ leBytes 1 0 ++
      leBytes 4 (s.fld Reg.bootStatus Fld.bootStatusPbSeq) ++ leBytes 2 unit ++ leBytes 1 b34 ++ leBytes 1 b35 ++ rest))

/-- The Playbill slot in use. -/
def State.slotInUse (s : State) : Nat := s.fld Reg.bootStatus Fld.bootStatusPbSlot

/-- A PLAYBILL event: the slot and its failure code (R375, R405). -/
def State.playbillEvent (s : State) (severity slot code : Nat) : State :=
  s.event (s.deviceRec 3 severity slot code 0 0 0 [])

/-- A SELF_TEST event, which the black box always takes (R379). -/
def State.selfTestEvent (s : State) (fn unit s2 s3 : Nat) : State :=
  let r := s.deviceRec 2 (openSeverity 0x10 (openStatus (Config.deviceStatus 2))) s.slotInUse fn unit s2 (s3 % 256) []
  let s := if 2 ≤ r.severity then s
    else s.bbxWrite r.stamp r.typ r.status (r.act + r.severity * 16) 1 r.phys 0 0 (r.payload.take 8)
  s.event r

/-! Firmware and Playbill. -/

/-- FIRMWARE_VERIFY: PHASE 0x2, with the bank that boots (R370). -/
def State.verifyFirmware (s : State) : State :=
  if s.starting 1 then
    let s := s.enterPhase 2
    match s.bootBank with
    | some b => (s.setFld Reg.bootStatus Fld.bootStatusFwOk 1).setFld Reg.bootStatus Fld.bootStatusFwBank b
    | none => s
  else s

/-- The start goes on with a slot, 0 A or 1 B: its layouts, registers and certificates, and mirroring begins (R360, R372,
R373, R375). -/
def State.startOn (s : State) (slot : Nat) : State :=
  let l := (s.slotSections slot).getD []
  let seq := s.slotSeq slot
  let key := s.slotKeySlot slot
  let s := (s.loadImage l).stageTrust l
  let s := (s.setFld Reg.bootStatus Fld.bootStatusPbSlot (slot + 1)).setFld Reg.bootStatus Fld.bootStatusPbSeq seq
  ((s.setFld Reg.bootStatus Fld.bootStatusKeySlot key).enterPhase 3).mirrorStart

/-- PLAYBILL_SELECT: both slots are examined once a start, each with a read error of the flash or not; the valid slot with
the higher SEQ is used, A when they are equal; with no valid slot the module stays in PHASE 0x2 (R374 to R376). -/
def State.selectPlaybill (s : State) (errA errB : Bool) : State :=
  if s.starting 2 && s.flag Reg.bootStatus Fld.bootStatusFwOk && s.slotInUse = 0 &&
      s.fld Reg.bootStatus Fld.bootStatusPbErrA = 0 then
    let a := s.slotCode 0 errA
    let b := s.slotCode 1 errB
    let s := (s.setFld Reg.bootStatus Fld.bootStatusPbErrA a).setFld Reg.bootStatus Fld.bootStatusPbErrB b
    if a = 0 ∧ b = 0 then s.startOn (b2n (decide (s.slotSeq 0 < s.slotSeq 1)))
    else if a = 0 then (s.startOn 0).playbillEvent 1 2 b
    else if b = 0 then (s.startOn 1).playbillEvent 1 1 a
    else s
  else s

/-! Stacks and far ports. -/

/-- Milliseconds since the module left reset. -/
def State.sinceReset (s : State) : Nat := s.uptime / 1000000

/-- A stack that fails at the start is recorded and lost (R377, R379). -/
def State.startLoss (s : State) (t : Nat) : State :=
  let k := Reg.bootResult
  let w := s.fld k Fld.bootResultStacksFailed
  (s.setFld k Fld.bootResultStacksFailed (w ||| 2 ^ t)).loseStack t

/-- What a far port found in training (R189, R405, Table 6.8). -/
def State.farTrained (s : State) (p : Nat) (l : List FarTrain) : State :=
  match l.find? fun f => f.port = p with
  | some f =>
    let k := Reg.farStatus p
    let s := (s.setFld k Fld.farStatusLinkUp (b2n (decide (f.width ≠ 0)))).setFld k Fld.farStatusDeviceOk (b2n f.deviceOk)
    (s.setFld k Fld.farStatusWidth f.width).setReg (Reg.farCap p) (min f.capGib 8192)
  | none => s

/-- Whether a far window reaches beyond the capacity of its port's device, or has no device (R405). -/
def State.farMisfit (s : State) : Bool :=
  s.farWindows.any fun w =>
    !s.flag (Reg.farStatus w.1) Fld.farStatusDeviceOk || decide (s.reg (Reg.farCap w.1) < w.2.1 + w.2.2)

/-- STACK_TRAINING_COMPLETE: the stacks that trained, what the far ports found, and the check of the far windows (R377,
R405). -/
def State.stacksTrained (s : State) (trained : BitVec 32) (far : List FarTrain) : State :=
  if s.starting 3 then
    let s := s.setFld Reg.memStackOk Fld.memStackOkMap (2 ^ 32 - 1)
    let s := s.setFld Reg.bootTimes Fld.bootTimesTrainMs s.sinceReset
    let s := s.each (List.range 4) fun p s => if s.farBonded p then s.farTrained p far else s
    let s := s.each ((List.range 32).filter fun t => !trained.getLsbD t) fun t s => s.startLoss t
    if s.phase ≠ 3 then s
    else if s.farMisfit then (s.playbillEvent 3 s.slotInUse 7).moduleLost
    else s.enterPhase 4
  else s

/-! Self-test. -/

/-- A port begins its bring-up: those of a dimension with more than one module, and not disabled (R314, R380). -/
def State.bringUp (s : State) : State :=
  s.each ((List.range 8).filter fun p => 1 < s.extent (p / 2) && !s.flag (Reg.lnkCtl p) Fld.lnkCtlDisable) fun p s =>
    if s.portState p = 0 then s.setPort p 1 0 else s

/-- SELF_TEST_COMPLETE: the failures of the tests that ran on every core that is not fused off and on every stack; the
headline act's cores are mapped and the links come up (R378, R379, R380). Nothing of near memory survives. -/
def State.selfTested (s : State) (cores stackFails : List TestFail) : State :=
  if s.starting 4 then
    let cores := cores.filter fun f => s.coreState f.unit ≠ 0
    let bad := (cores.map (·.unit)).eraseDups
    let s := { s with near := [], nearPoison := [] }
    let s := s.each ((List.range 208).filter fun n => s.coreState n ≠ 0 && !bad.contains n) fun n s =>
      s.modCore n fun k => { k with lastTest := some s.uptime }
    let s := s.setFld Reg.bootResult Fld.bootResultCoresFailed bad.length
    let s : State := s.each cores fun f s => s.selfTestEvent f.fn f.unit f.s2 f.s3
    let s : State := s.each bad fun n s => s.fenceCore n 4 id
    let s : State := s.each stackFails fun f s => (s.selfTestEvent f.fn f.unit f.s2 f.s3).startLoss f.unit
    let s : State := if s.phase = 4 then s.enthrone s.headline else s
    if s.phase = 4 then (s.enterPhase 5).bringUp else s
  else s

/-! READY. -/

/-- Whether every port of a dimension with more than one module is IN_SERVICE or QUARANTINED, or has been in bring-up for
2.5 s (R380). -/
def State.portsUp (s : State) : Bool :=
  decide (s.phaseAt + 2500000000 ≤ s.uptime) ||
    (List.range 8).all fun p => decide (s.extent (p / 2) ≤ 1) || s.portState p = 4 || s.portState p = 6

/-- Whether the time of day has been found as SOURCE asks (R380). -/
def State.timeFound (s : State) : Bool :=
  let k := Reg.sckStatus
  match s.fld Reg.sckCtl Fld.sckCtlSource with
  | 0 => true
  | 3 => s.flag k Fld.sckStatusParentValid && s.flag k Fld.sckStatusLocked && s.flag k Fld.sckStatusTimeSet
  | _ => s.flag k Fld.sckStatusLocked && s.flag k Fld.sckStatusTimeSet

/-- READY: PHASE 0x6 and the READY record (R381, Table 13.7). -/
def State.becomeReady (s : State) : State :=
  let s := (s.enterPhase 6).setFld Reg.bootTimes Fld.bootTimesReadyMs s.sinceReset
  let s := s.showWarden
  let passing := ((List.range 208).filter fun n => s.coreState n ≠ 0 && s.coreState n ≠ 4).length
  let ports := (List.range 8).foldl (fun m p => m + b2n (s.inService p) * 2 ^ p) 0
  s.event (s.deviceRec 1 (openSeverity 0x10 (openStatus (Config.deviceStatus 1))) s.slotInUse 0 passing
    (s.fld Reg.netStatus Fld.netStatusSpares) (s.fld Reg.netStatus Fld.netStatusFenced)
    (leBytes 4 (s.fld Reg.memStackOk Fld.memStackOkMap) ++ leBytes 1 ports ++ leBytes 1 (bits (s.reg Reg.sckStatus) 0 4)))

/-- LINK_BRINGUP_COMPLETE (R380). -/
def State.linksUp (s : State) : State := if s.starting 5 ∧ s.portsUp = true ∧ s.timeFound = true then s.becomeReady else s

/-- TIME_WAIT_TIMEOUT: the time of day was not found within 60 s of entering PHASE 0x5 (R200, R380). -/
def State.timeWaitEnds (s : State) : State :=
  if s.starting 5 ∧ s.phaseAt + 60000000000 < s.uptime ∧ s.timeFound = false then
    let s := (s.setFld Reg.sckStatus Fld.sckStatusTimeSet 0).setFld Reg.sckStatus Fld.sckStatusHoldover 1
    (s.event (s.deviceRec 4 2 s.slotInUse 0 0 0 0 [])).becomeReady
  else s

/-! Meanings. -/

/-- FIRMWARE_VERIFY. -/
def execFirmwareVerify (s : State) : Host.Outcome State Fault Refusal := whenUnits s true s.verifyFirmware
/-- PLAYBILL_SELECT. -/
def execPlaybillSelect (errA errB : Bool) (s : State) : Host.Outcome State Fault Refusal :=
  whenUnits s true (s.selectPlaybill errA errB)
/-- STACK_TRAINING_COMPLETE. -/
def execStackTrainingComplete (trained : BitVec 32) (far : List FarTrain) (s : State) :
    Host.Outcome State Fault Refusal :=
  whenUnits s (far.all fun f => okFour f.port) (s.stacksTrained trained far)
/-- SELF_TEST_COMPLETE. -/
def execSelfTestComplete (cores stackFails : List TestFail) (s : State) : Host.Outcome State Fault Refusal :=
  whenUnits s (cores.all (fun f => okCore f.unit) && stackFails.all (fun f => okStack f.unit)) (s.selfTested cores stackFails)
/-- LINK_BRINGUP_COMPLETE. -/
def execLinkBringupComplete (s : State) : Host.Outcome State Fault Refusal := whenUnits s true s.linksUp
/-- TIME_WAIT_TIMEOUT. -/
def execTimeWaitTimeout (s : State) : Host.Outcome State Fault Refusal := whenUnits s true s.timeWaitEnds

end Sys2Proof.Machine
end

