-- ==== Sys2Proof/Machine/Regs.lean ====
section
/-! DEFINITION. BAR0 as the host sees it: which register an access reaches (R27, R28, R30 to R32, R248 to R250, R274), what a
write does (R8 to R10, R29, R368 and the register tables), what a read returns and clears (R10), and the records that a
write of 1 clears (R71, R103, R131, R169, R306). -/

namespace Sys2Proof.Machine

/-! Which register an access reaches. -/

/-- The key of the register file behind a PF offset: the block of the function's QSEL and aperture, of the queue that the
function has selected, or the offset itself (R222, R248, R249, R274). -/
def State.barKey (s : State) (fn off : Nat) : Option Nat :=
  if off < 0x400000 then some off
  else if off < 0x400008 ∨ (0x400060 ≤ off ∧ off < 0x400068) then some (2 ^ 34 + fn * 0x100 + (off - 0x400000))
  else if off < 0x400060 then (s.selected fn).map fun q => 2 ^ 32 + q * 0x10000 + (off - 0x400000)
  else if 0x500000 ≤ off ∧ off < 0x600000 then
    (match s.evtSelected fn with
      | some q => if off < 0x500100 then some (2 ^ 32 + q * 0x10000 + 0x1000 + (off - 0x500000)) else some off
      | none => none)
  else if 0x600000 ≤ off ∧ off < 0x601000 then
    (match s.selected fn with
      | some q => if s.qType q = 2 then some (2 ^ 32 + q * 0x10000 + 0x2000 + (off - 0x600000)) else none
      | none => none)
  else some off

/-- The PF offset that an offset of a virtual function's act view mirrors (Table 8.13); TROUPE_n is no such part. -/
def vfOffset (k off : Nat) : Option Nat :=
  if off < 0x100 then some (0x400000 + off)
  else if 0x1000 ≤ off ∧ off < 0x1040 then some (0x401000 + 0x40 * k + (off - 0x1000))
  else if 0x2000 ≤ off ∧ off < 0x2100 then some (0x500000 + (off - 0x2000))
  else if 0x3000 ≤ off ∧ off < 0x3008 then some (0x300000 + (off - 0x3000))
  else if 0x3010 ≤ off ∧ off < 0x3018 then some (0x300010 + (off - 0x3010))
  else if 0x3100 ≤ off ∧ off < 0x3200 then some (0x300200 + 0x100 * k + (off - 0x3100))
  else if 0x4000 ≤ off ∧ off < 0x8000 then some (0x308000 + (off - 0x4000))
  else none

/-- The PF offset that an access of a function stands for; the PF's BAR0 ends at 64 MiB (R27, R221). -/
def pfOffset (fn off : Nat) : Option Nat :=
  if fn ≠ 0 then vfOffset fn off else if off < 2 ^ 26 then some off else none

/-- The register whose 32-bit half lies at a key: its own key, its definition, and whether it is the upper half. -/
def halfAt (key : Nat) : Option (Nat × RegDef × Bool) :=
  match findReg key with
  | some r => some (key, r, false)
  | none =>
    match (if 4 ≤ key then findReg (key - 4) else none) with
    | some r => if r.bytes = 8 then some (key - 4, r, true) else none
    | none => none

/-- The registers that an aligned access of 4 or 8 bytes reaches: each with its key, its definition, whether its upper half
is meant, and the bits of the access it takes: their lowest and their number. An access to a half of a register has 32 of
them (R10, R28). -/
def State.reached (s : State) (fn off size : Nat) : List (Nat × RegDef × Bool × Nat × Nat) :=
  match pfOffset fn off with
  | none => []
  | some o =>
    let half (o lo : Nat) : List (Nat × RegDef × Bool × Nat × Nat) :=
      match (s.barKey fn o).bind halfAt with
      | some (k, r, up) => [(k, r, up, lo, 32)]
      | none => []
    if size = 4 then half o 0
    else
      match (s.barKey fn o).bind fun k => (findReg k).map fun r => (k, r) with
      | some (k, r) => if r.bytes = 8 then [(k, r, false, 0, 64)] else half o 0 ++ half (o + 4) 32
      | none => half (o + 4) 32

/-- Whether BAR0 takes an access of this size and alignment (R28). -/
def barAligned (off size : Nat) : Bool := (size = 4 || size = 8) && decide (off % size = 0)

/-- An access of a wrong size or alignment: Unsupported Request, and an event for act 0 (R28). -/
def State.unsupported (s : State) (fn off : Nat) : State := (s.emit (.ur fn off)).deniedEvent 0

/-! What a read returns. -/

/-- The words of CAP (Table 1.8). -/
def Fuses.cap (f : Fuses) (k : Nat) : Option Nat :=
  let en := f.enabled.toNat
  let sp := f.spares.toNat
  let ones (m : Nat) := ((List.range 208).filter fun n => m.testBit n).length
  if k = Reg.capId then some (f.stepping + f.grade * 256 + 0x0960 * 65536)
  else if k = Reg.capCores then some (ones en + ones sp * 256 + (208 - ones en - ones sp) * 65536)
  else if 0x1010 ≤ k ∧ k < 0x102C then some (bits en (8 * (k - 0x1010)) 32)
  else if 0x1030 ≤ k ∧ k < 0x104C then some (bits sp (8 * (k - 0x1030)) 32)
  else if k = Reg.capMedia then some (if f.grade = 1 then 0xF else 0x5)
  else if k = Reg.capFar then some (if f.grade = 1 then 0xF else 0)
  else if k = Reg.capFabric then some 0xFF
  else none

/-- The code of a bucket's state (Table 10.7). -/
def BktState.code : BktState → Nat
  | .free => 0 | .held => 1 | .reduce => 2 | .vote => 3 | .update => 4 | .gather => 5

/-- Whether a bucket has seen element poison: in its own contribution or its descriptor (R278), in a block received, in the
completed sum, in a vote or a gather block (Table 10.7). A descriptor marked without NaN or infinity in its copy shows here alone
(DESIGN CHOICE, log 166). -/
def Bucket.sawPoison (b : Bucket) : Bool :=
  b.scanned || b.blocks.any (fun bs => fieldAt bs 16 4 ≠ 0xFFFFFFFF) || b.origin.isSome ||
    b.votes.any (·.poison) || b.poison.isSome

/-- The current transmission of a bucket: of the reduce-scatter, then of the gather (Table 10.7). -/
def Bucket.hopNow (b : Bucket) : Nat :=
  if b.state = .gather then
    b.sent.foldl (fun a i => if i / 2 ^ 36 = 2 then max a (i / 2 ^ 32 % 16) else a) 0
  else b.hop

/-- CAR.SLOT of a Carousel: the slot that SLOT_SEL selects (Table 10.7). -/
def State.carSlotWord (s : State) (m : Nat) : Nat :=
  match Sparse.get? s.buckets (slotKey m (s.fld (Reg.carSlotSel m) Fld.carSlotSelSlot)) with
  | some b =>
    b.tag + b.state.code * 2 ^ 16 + b2n b.sawPoison * 2 ^ 19 + b.hopNow % 16 * 2 ^ 20 + b.act * 2 ^ 24 + b.step * 2 ^ 32
  | none => 0

/-- OPT.STATUS: BUSY, and COMMIT_WAIT for an update that waits for its vote or its other half (Table 10.9). -/
def State.optStatusWord (s : State) (e : Nat) : Nat :=
  b2n (s.optBusy e) + 2 * b2n (s.buckets.any fun p => p.2.taken.contains e && !p.2.computing.contains e &&
    (p.2.state = .vote || p.2.state = .update))

/-- FAB.FAULT: the entry that FAULT_SEL selects (R327, Table 11.12). -/
def State.faultWord (s : State) : Nat :=
  match s.faults[s.fld Reg.fabFaultSel Fld.fabFaultSelEntry]? with
  | some f => f.addr + f.port * 2 ^ 16 + f.state * 2 ^ 19 + 2 ^ 22 + f.gen * 2 ^ 32
  | none => 0

/-- TS.REFS of a slot (Table 9.13). -/
def State.refsWord (s : State) (n : Nat) : Nat :=
  let t := s.tsSlot n
  let refs (b : Option TsBank) := match b with | some b => s.tsRefs n b.gen | none => 0
  refs t.cur + refs t.prev * 2 ^ 32

/-- Whether a register belongs to a resource that this grade lacks: the window of a fused-off core, the second video block of
a Midway on a PN96-B (Table 1.8), an unbonded far port (R30). -/
def State.absent (s : State) (k : Nat) : Bool :=
  (decide (0x1000000 ≤ k) && decide (k < 0x1D00000) && decide (s.coreState ((k - 0x1000000) / 0x10000) = 0)) ||
    ((decide (k = Reg.mdVidPixels 0 1) || decide (k = Reg.mdVidPixels 1 1)) && decide (s.fuse.grade ≠ 1)) ||
    (decide (0xA80000 ≤ k) && decide (k < 0xA80400) && !s.farBonded ((k - 0xA80000) / 0x100))

/-- The word of a register of a core window; a fenced core's reads as at its fencing (R31). -/
def State.coreWord (s : State) (k : Nat) : Nat :=
  let n := (k - 0x1000000) / 0x10000
  match ((s.core n).frozenRegs.find? fun p => p.1 = k), s.coreView n (k % 0x10000) with
  | some p, _ => p.2.toNat
  | none, some v => v
  | none, none => if (s.core n).fenceAt.isSome then resetReg s.fuse k else s.reg k

/-- The word of a register that shows what the module holds elsewhere, and not a stored word. -/
def State.shown (s : State) (k : Nat) (r : RegDef) : Option Nat :=
  if s.absent k = true then some 0
  else if 0x1000000 ≤ k ∧ k < 0x1D00000 then some (s.coreWord k)
  else if k < 0x2000 then s.fuse.cap k
  else if k = Reg.sckNow then some s.now
  else if k = Reg.sckAct 0 then some (putBits (s.reg k) Fld.sckActEnabled.lo 1 1)
  else if r.base = Reg.tsRefs 0 then some (s.refsWord ((k - r.base) / 0x20))
  else if r.base = Reg.tsSlot 0 then some (s.tsSlotWord ((k - r.base) / 0x20))
  else if r.base = Reg.inStatus 0 then some (s.inStatusWord ((k - r.base) / 0x10000))
  else if r.base = Reg.inBatch 0 then some (s.inBatchWord ((k - r.base) / 0x10000))
  else if r.base = Reg.mdStatus 0 then some (s.mdStatusWord ((k - r.base) / 0x1000))
  else if r.base = Reg.tokStatus 0 then some (s.enginesBusy ((k - r.base) / 0x1000) 3 2)
  else if r.base = Reg.carSlot 0 then some (s.carSlotWord ((k - r.base) / 0x20000))
  else if r.base = Reg.carStatus 0 then
    some (s.buckets.filter fun p => p.1 / 128 = (k - r.base) / 0x20000).length
  else if r.base = Reg.optStatus 0 then some (s.optStatusWord ((k - r.base) / 0x10000))
  else if k = Reg.fabFault then some s.faultWord
  else if r.base = Reg.lnkDegrades 0 then
    some (min 255 (recent s.now (60 * second) (s.port ((k - r.base) / 0x1000)).degrades).length)
  else if r.base = Reg.bbxFlashData 0 then some (s.flashData ((k - r.base) / 8))
  else if k = Reg.bootFuse then some (s.fuse.keyValid.toNat + s.fuse.keyRevoked.toNat * 16)
  else if k = Reg.mgtSerial then some s.fuse.serial.toNat
  else if k = Reg.mgtSmb then some (putBits (s.reg k) 0 7 (0x60 + s.fuse.addrStraps.toNat))
  else if k = Reg.pwrCoolant then some ((Config.coolant 0 s.now).toNat + (Config.coolant 1 s.now).toNat * 2 ^ 16)
  else none

/-- The word that a read of a register returns; WO fields read zero (Table 0.4). -/
def State.regWord (s : State) (k : Nat) (r : RegDef) : Nat :=
  r.fields.foldl (fun w f => if f.access = .wo then putBits w f.fld.lo f.fld.w 0 else w) ((s.shown k r).getD (s.reg k))

/-- TROUPE_n of an act: 0 not in the troupe, 1 in service, 2 fenced, 3 replaced by a spare, and its home die (Table 8.13).
A sideshow act's logical core reads 1 while it is bound and 0 otherwise (R231; its home die then, log 91). -/
def State.troupeWord (s : State) (a n : Nat) : Nat :=
  match (s.layout? a).bind fun l => l.troupe[n]? with
  | none => 0
  | some d =>
    let host := s.cores.find? fun p => p.2.logical.contains (a, n)
    let st := match host with
      | some p => if s.fuse.spares.getLsbD p.1 then 3 else 1
      | none => 2
    let side := s.cores.any fun p => p.2.sideHolder = some (a, n)
    (if a = s.headline then st else b2n side) + d * 256

/-- Whether a VF's access lies on a cue entry of another act (Table 8.13). -/
def State.cueForeign (s : State) (fn off : Nat) : Bool :=
  fn ≠ 0 && decide (0x4000 ≤ off) && decide (off < 0x8000) && decide (s.cueAct ((off - 0x4000) / 0x20) ≠ fn)

/-- What a read of `size` bytes returns. -/
def State.barRead (s : State) (fn off size : Nat) : Nat :=
  if fn ≠ 0 ∧ 0x8000 ≤ off ∧ off < 0x8600 then bits (s.troupeWord fn ((off - 0x8000) / 8)) (8 * (off % 8)) (8 * size)
  else if s.cueForeign fn off then 0
  else
    (s.reached fn off size).foldl (fun v x =>
      v + bits (s.regWord x.1 x.2.1) (if x.2.2.1 then 32 else 0) x.2.2.2.2 * 2 ^ x.2.2.2.1) 0

/-! What a read clears. -/

/-- What an RC field holds once it has been read: zero, and an extreme since the last read starts again at the present
level (R10; log 98). -/
def State.rcRestart (s : State) (k : Nat) (r : RegDef) : Nat :=
  if r.base = Reg.mxXpq 0 0 then s.fld k Fld.mxXpqLevel
  else if r.base = Reg.farOutst 0 then s.fld k Fld.farOutstOutstanding
  else if r.base = Reg.memStk1 0 then s.fld k Fld.memStk1Outstanding
  else 0

/-- Clears the RC fields of a register that bits `lo` to `lo + n − 1` cover in full (R10). -/
def State.rcClear (s : State) (k : Nat) (r : RegDef) (lo n : Nat) : State :=
  let v := s.rcRestart k r
  s.each r.fields fun f s =>
    if f.access = .rc ∧ lo ≤ f.fld.lo ∧ f.fld.lo + f.fld.w ≤ lo + n then s.setFld k f.fld v else s

/-- Whether the window of a core holds still: absent, or fenced until the core returns to service (R30, R31). -/
def State.windowShut (s : State) (k : Nat) : Bool :=
  decide (0x1000000 ≤ k) && decide (k < 0x1D00000) &&
    (let n := (k - 0x1000000) / 0x10000
     s.coreState n = 0 || (s.core n).fenceAt.isSome)

/-- RC_READ: the read's data leave, then the RC fields it covers are cleared (R10, R29). -/
def State.barReadCommand (s : State) (fn off size : Nat) : State :=
  if !s.hostOk fn then s
  else if !barAligned off size then s.unsupported fn off
  else
    let l := if s.cueForeign fn off then [] else s.reached fn off size
    (s.emit (.data fn off (leBytes size (s.barRead fn off size)))).each l fun x s =>
      if s.absent x.1 || s.windowShut x.1 then s else s.rcClear x.1 x.2.1 (if x.2.2.1 then 32 else 0) x.2.2.2.2

/-! Records that a write of 1 clears. -/

/-- NUM.TILE_NAN.VALID: clears VALID and COUNT (R71). -/
def State.clearTileNan (s : State) (n : Nat) : State :=
  (s.setFld (Reg.numTileNan n) Fld.numTileNanValid 0).setFld (Reg.numTileNan n) Fld.numTileNanCount 0

/-- MX.XPFAULT.VALID: clears VALID and MX.XPPOS; the read-only fields beside it keep their values (R103). -/
def State.clearXpfault (s : State) (n : Nat) : State :=
  (s.setFld (Reg.mxXpfault n) Fld.mxXpfaultValid 0).setReg (Reg.mxXppos n) 0

/-- VX.FAULT.VALID: clears VALID and VX.ADDR; the read-only fields beside it keep their values (R131). -/
def State.clearVxFault (s : State) (n : Nat) : State :=
  (s.setFld (Reg.vxFault n) Fld.vxFaultValid 0).setReg (Reg.vxAddr n) 0

/-- SEQ.FAULT.VALID: clears VALID and SEQ.FAULTPOS; the read-only fields beside it keep their values (R169). -/
def State.clearSeqFault (s : State) (n x : Nat) : State :=
  (s.setFld (Reg.seqFault n x) Fld.seqFaultValid 0).setReg (Reg.seqFaultpos n x) 0

/-- CAR.POISON_a.VALID: clears VALID and CAR.POISON_POS_a; the read-only fields beside it keep their values (R306). -/
def State.clearCarPoison (s : State) (a : Nat) : State :=
  (s.setFld (Reg.carPoison a) Fld.carPoisonValid 0).setReg (Reg.carPoisonPos a) 0

/-! What a write does. -/

/-- Whether a bit is both covered by the write and 1. -/
def hits (m v i : Nat) : Bool := m.testBit i && v.testBit i

/-- Whether a write of act 0 is taken before PHASE 0x6: TOP.SCRATCH, the BOOT block, the QM and EVT registers of act 0's
event queues, and BBX.CTL (R368); and the time of day and PTP pairs, which R196 and R380 need before READY (log 99). -/
def State.early (s : State) (k : Nat) : Bool :=
  k = Reg.topScratch || (decide (0x100000 ≤ k) && decide (k < 0x200000)) || k = Reg.bbxCtl || k = Reg.qmQsel 0 ||
    k = Reg.qmActEvq 0 || k = Reg.sckTod || k = Reg.sckPtpNs || k = Reg.sckPtpAt ||
    (decide (2 ^ 32 ≤ k) && decide (k < 2 ^ 34) && decide (k % 0x10000 < 0x2000) &&
      (let q := (k - 2 ^ 32) / 0x10000
       s.queueAct q = some 0 && (s.qState q = 0 || s.qType q = 3)))

/-- Whether a register is configuration of its queue, written only while the queue is DISABLED (R248, R274). -/
def isConfig (base : Nat) : Bool :=
  [Reg.qmQCfg 0, Reg.qmQBase 0, Reg.qmQShadow 0, Reg.qmQPeer 0, Reg.qmQData 0, Reg.qmQDataSize 0].contains base ||
    (decide (Reg.inSeq 0 ≤ base) && decide (base < Reg.inStatus 0))

/-- Whether a write is ignored whole: an absent resource's register, a core window that holds still, configuration of a created queue, the act's Carousel
controls while it has a bucket in flight (R30, R31, R248, R306). -/
def State.writeShut (s : State) (k : Nat) (r : RegDef) : Bool :=
  s.absent k || s.windowShut k || (isConfig r.base && s.qState ((k - 2 ^ 32) / 0x10000) ≠ 0) ||
    (r.base = Reg.carBktCtl 0 && s.buckets.any fun b => decide (b.2.act = (k - r.base) / 0x100))

/-- Stores what a write leaves in a register (Table 0.4). -/
def State.plainWrite (s : State) (k : Nat) (r : RegDef) (m v : Nat) : State :=
  let old := s.reg k
  let new := ruledWrite r m v old
  if new = old then s else s.setReg k new

/-- QSEL: a VF selects its act's queues only; any other write clears VALID (R248). -/
def State.qselWrite (s : State) (fn m v : Nat) (r : RegDef) : State :=
  let k := Reg.qmQsel fn
  let t := s.plainWrite k r m v
  if fn = 0 ∨ t.queueAct (t.fld k Fld.qmQselQueue) = some fn then t else s.setFld k Fld.qmQselValid 0

/-- EVT.MOD: the queue of a VF names its 16 vectors only (R247). -/
def State.evtModWrite (s : State) (k m v : Nat) (r : RegDef) : State :=
  let t := s.plainWrite k r m v
  let q := (k - 2 ^ 32) / 0x10000
  if s.queueAct q ≠ some 0 ∧ 16 ≤ t.fld k Fld.evtModVector then
    t.setFld k Fld.evtModVector (s.fld k Fld.evtModVector)
  else t

/-- Q_CTL: a control by its one bit; more than one bit is ignored (Table 8.11). -/
def State.ctlWrite (s : State) (fn v : Nat) : State :=
  match (List.range 7).find? fun i => v % 128 = 2 ^ i with
  | some i => s.control fn i
  | none => s

/-- A write to a cue entry, by the function of its act (R201, R217). -/
def State.cueHostWrite (s : State) (fn k m v : Nat) : State :=
  let e := (k - Reg.cueFireAt 0) / 0x20
  if s.cueAct e ≠ fn then s.deniedEvent fn
  else
    let word := k % 0x20 / 8
    let new := mergeBits (s.reg k) m v
    if word = 1 ∧ m % 16 = 0 then s else s.cueWordWrite e word new

/-- LNK.CTL: the rate, RETRY, and DISABLE set or cleared (R314, Table 11.13). -/
def State.lnkCtlWrite (s : State) (k m v : Nat) (r : RegDef) : State :=
  let p := (k - Reg.lnkCtl 0) / 0x1000
  let s := s.plainWrite k r (m - (m &&& 2)) v
  let s := if hits m v 0 then s.portRetry p else s
  if m.testBit 1 then (if v.testBit 1 then s.portDisable p else s.portEnable p) else s

/-- A write of the bits `m` of `v` to a register, the fields with a step of their own included (R8). A 32-bit write of one half
of SCK.TOD or SCK.PTP_AT acts at once, with the other half taken as zero (DESIGN CHOICE, log 163). -/
def State.writeReg (s : State) (fn k : Nat) (r : RegDef) (m v : Nat) : State :=
  let b := r.base
  if (fn = 0 && !s.started && !s.early k) || s.writeShut k r then s
  else if b = Reg.qmQsel 0 then s.qselWrite fn m v r
  else if b = Reg.qmQCtl 0 then s.ctlWrite fn (v &&& m)
  else if b = Reg.evtMod 0 then s.evtModWrite k m v r
  else if b = Reg.evtTest then s.evtTest (v &&& m)
  else if b = Reg.qmActEvq 0 then (s.plainWrite k r m v).releaseHold ((k - b) / 0x40)
  else if b = Reg.sckTod then { s with clock := { s.clock with todArmed := s.clock.todArmed ++ [(v &&& m, s.now)] } }
  else if b = Reg.sckPtpAt then s.ptpCommit (v &&& m)
  else if b = Reg.sckHeadline then (if m % 16 = 0 then s else s.headlineRequest v)
  else if Reg.cueFireAt 0 ≤ b ∧ b ≤ Reg.cueArg 0 then s.cueHostWrite fn k m v
  else if b = Reg.mxCtl 0 then
    let t := s.plainWrite k r m v
    if hits m v 8 then t.armInject ((k - 0x1000000) / 0x10000) else t
  else if b = Reg.numTileNan 0 then (if hits m v 15 then s.clearTileNan ((k - 0x1000000) / 0x10000) else s)
  else if b = Reg.mxXpfault 0 then (if hits m v 0 then s.clearXpfault ((k - 0x1000000) / 0x10000) else s)
  else if b = Reg.vxFault 0 then (if hits m v 0 then s.clearVxFault ((k - 0x1000000) / 0x10000) else s)
  else if b = Reg.seqFault 0 0 then
    (if hits m v 0 then s.clearSeqFault ((k - 0x1000000) / 0x10000) ((k - b) % 0x10000 / 0x800) else s)
  else if b = Reg.carPoison 0 then (if hits m v 0 then s.clearCarPoison ((k - b) / 0x100) else s)
  else if b = Reg.lnkCtl 0 then s.lnkCtlWrite k m v r
  else if b = Reg.netCoreCmd then
    (if bits (v &&& m) 8 2 = 1 ∧ bits v 0 8 < 208 then s.retest (bits v 0 8) else s)
  else if b = Reg.bbxCtl then
    let t := if hits m v 0 then s.bbxFreeze 4 else s
    if hits m v 1 then t.bbxThaw else t
  else if b = Reg.bootCtl then s.reboot (v &&& m)
  else if b = Reg.bootFlashCmd then
    let t := s.plainWrite k r m v
    if bits (v &&& m) 0 2 = 0 then t else t.flashCmd (bits (v &&& m) 0 2)
  else if b = Reg.prbCmd then
    (match bits (v &&& m) 0 2 with | 1 => s.submitToken | 2 => s.relock | _ => s)
  else if b = Reg.prbToken 0 then s.setReg k (mergeBits (s.reg k) m v)
  else s.plainWrite k r m v

/-- REGISTER_WRITE: a BAR0 write of 4 or 8 bytes (R8, R9, R28 to R32, R250). A VF's write outside what is its act's own is
ignored with an event. -/
def State.barWrite (s : State) (fn off size v : Nat) : State :=
  if !s.hostOk fn then s
  else if !barAligned off size then s.unsupported fn off
  else if fn ≠ 0 ∧ 0x8000 ≤ off ∧ off < 0x8600 then
    (if s.troupeSize fn ≤ (off - 0x8000) / 8 then s.deniedEvent fn else s)
  else if s.cueForeign fn off then s.deniedEvent fn
  else
    s.each (s.reached fn off size) fun x s =>
      let m := (2 ^ x.2.2.2.2 - 1) * (if x.2.2.1 then 2 ^ 32 else 1)
      s.writeReg fn x.1 x.2.1 m (bits v x.2.2.2.1 x.2.2.2.2 * (if x.2.2.1 then 2 ^ 32 else 1))

/-- A write by act 0 of 1 to the bit that clears a record of a core. -/
def State.clearRecord (s : State) (n : Nat) (eff : State → State) : State :=
  if s.hostOk 0 && s.started && !s.windowShut (0x1000000 + n * 0x10000) then eff s else s

/-! Meanings. -/

/-- REGISTER_WRITE. -/
def execRegisterWrite (fn off size val : Nat) (s : State) : Host.Outcome State Fault Refusal :=
  whenUnits s (okFn fn) (s.barWrite fn off size val)
/-- RC_READ. -/
def execRcRead (fn off size : Nat) (s : State) : Host.Outcome State Fault Refusal :=
  whenUnits s (okFn fn) (s.barReadCommand fn off size)
/-- UNSUPPORTED_BAR0_ACCESS. -/
def execUnsupportedBar0Access (fn off size : Nat) (s : State) : Host.Outcome State Fault Refusal :=
  whenUnits s (okFn fn) (if s.hostOk fn && !barAligned off size then s.unsupported fn off else s)
/-- TILE_NAN_CLEAR. -/
def execTileNanClear (core : Nat) (s : State) : Host.Outcome State Fault Refusal :=
  whenUnits s (okCore core) (s.clearRecord core fun s => s.clearTileNan core)
/-- XPFAULT_CLEAR. -/
def execXpfaultClear (core : Nat) (s : State) : Host.Outcome State Fault Refusal :=
  whenUnits s (okCore core) (s.clearRecord core fun s => s.clearXpfault core)
/-- VX_FAULT_CLEAR. -/
def execVxFaultClear (core : Nat) (s : State) : Host.Outcome State Fault Refusal :=
  whenUnits s (okCore core) (s.clearRecord core fun s => s.clearVxFault core)
/-- SEQ_FAULT_CLEAR. -/
def execSeqFaultClear (core ctx : Nat) (s : State) : Host.Outcome State Fault Refusal :=
  whenUnits s (okCore core && okCtx ctx) (s.clearRecord core fun s => s.clearSeqFault core ctx)
/-- CAR_POISON_CLEAR. -/
def execCarPoisonClear (act : Nat) (s : State) : Host.Outcome State Fault Refusal :=
  whenUnits s (okAct act) (if s.hostOk 0 && s.started then s.clearCarPoison act else s)

end Sys2Proof.Machine
end

