-- ==== Sys2Proof/Machine/Row.lean ====
section
/-! DEFINITION. The row engine (R117 to R125, R156). -/

namespace Sys2Proof.Machine

/-! The descriptor (Table 5.9). -/

/-- A row descriptor as read: its 64 bytes. -/
structure RowDesc where
  bytes : Bytes
  deriving DecidableEq, Repr

/-- Operand word `i`: 0 SRC_A, 1 SRC_B, 2 SRC_C, 3 DST. -/
def RowDesc.word (d : RowDesc) (i : Nat) : Nat := fieldAt d.bytes (4 * i) 4
/-- Rows. -/
def RowDesc.rows (d : RowDesc) : Nat := bits (fieldAt d.bytes 16 4) 0 14 + 1
/-- Row length. -/
def RowDesc.len (d : RowDesc) : Nat := bits (fieldAt d.bytes 20 4) 0 16 + 1
/-- Elements from one row start to the next. -/
def RowDesc.pitch (d : RowDesc) : Nat := fieldAt d.bytes 24 4
/-- SCALE, or ε. -/
def RowDesc.scale (d : RowDesc) : Nat := fieldAt d.bytes 28 4
/-- FMT. -/
def RowDesc.fmt (d : RowDesc) : Nat := fieldAt d.bytes 32 1
/-- RND. -/
def RowDesc.sr (d : RowDesc) : Bool := bit (fieldAt d.bytes 32 4) 8
/-- SLOT. -/
def RowDesc.slot (d : RowDesc) : Nat := bits (fieldAt d.bytes 32 4) 9 12
/-- TENSOR_ID. -/
def RowDesc.tensor (d : RowDesc) : Nat := fieldAt d.bytes 36 4
/-- ROW_BASE. -/
def RowDesc.rowBase (d : RowDesc) : Nat := bits (fieldAt d.bytes 40 8) 0 48
/-- COL_BASE. -/
def RowDesc.colBase (d : RowDesc) : Nat := bits (fieldAt d.bytes 48 8) 0 48
/-- SEG_ROW. -/
def RowDesc.segRow (d : RowDesc) : Nat := fieldAt d.bytes 56 4
/-- SEG_COL. -/
def RowDesc.segCol (d : RowDesc) : Nat := fieldAt d.bytes 60 4

/-- Whether an operand word names the stage buffer. -/
def opStage (o : Nat) : Bool := bit o 22
/-- Accumulator entry. -/
def opEntry (o : Nat) : Nat := bits o 0 19
/-- Stage-buffer address. -/
def opAddr (o : Nat) : Nat := bits o 0 22

/-- The fields of a ROW slot (R156). -/
def rowSide (w : Nat) : Nat := bits w 39 14
/-- MMODE. -/
def rowMode (w : Nat) : Nat := bits w 36 2
/-- RMS form. -/
def rowRms (w : Nat) : Bool := bit w 35
/-- EXTRA. -/
def rowExtra (w : Nat) : Bool := bit w 34

/-- An operand of an operation: its word, how many rows it has, and whether it is written. -/
structure RowOpnd where
  word : Nat
  rows : Nat
  write : Bool
  deriving DecidableEq, Repr

/-- The tensor operands of an operation (Tables 4.5, 5.9): γ and β are one row. -/
def rowOperands (w : Nat) (d : RowDesc) : List RowOpnd :=
  let rd (i : Nat) : RowOpnd := ⟨d.word i, d.rows, false⟩
  let vec (i : Nat) : RowOpnd := ⟨d.word i, 1, false⟩
  let wr (i : Nat) : RowOpnd := ⟨d.word i, d.rows, true⟩
  match slotOp w with
  | 1 => [rd 0, wr 3]
  | 2 => [wr 0]
  | 3 => [wr 0]
  | 4 => [rd 0, wr 3]
  | 5 => [rd 0, rd 1, wr 2, wr 3]
  | 6 => [rd 0, rd 1]
  | 7 => [rd 0, vec 1, vec 2, wr 3]
  | 8 => [rd 0, rd 1, vec 2, wr 3] ++
      (if rowExtra w then [⟨d.segRow, d.rows, true⟩, ⟨d.segCol, d.rows, true⟩] else [])
  | _ => []

/-- Where row `r` of a stage-buffer operand begins. -/
def RowDesc.rowAt (d : RowDesc) (o r : Nat) : Nat := opAddr o + r * d.pitch * fmtBits d.fmt / 8

/-- The bytes of row `r` of a stage-buffer operand: its elements, and in a block-scaled format whole groups with their
planes, whose addresses the descriptor leaves open (log 25). -/
def RowDesc.rowRanges (d : RowDesc) (o r : Nat) : List (Nat × Nat) :=
  let f := d.fmt
  if fmtG f = 0 then
    [(d.rowAt o r, ((r * d.pitch + d.len) * fmtBits f + 7) / 8 - r * d.pitch * fmtBits f / 8)]
  else
    let g := (d.len + fmtG f - 1) / fmtG f
    (d.rowAt o r, elemBytes f (g * fmtG f)) :: (List.range g).flatMap fun i =>
      ((Config.vecScaleAt f (d.rowAt o r) i).toNat, 1) ::
        (if fmtE f = 0 then [] else [((Config.vecSideAt f (d.rowAt o r) i).toNat, 4 * fmtE f)])

/-- The byte ranges that an operation reads from (`false`) or writes to (`true`) the stage buffer, in the context's
numbering: operands, segment vectors, and the copies of STAT.SAVE and STAT.LOAD. -/
def rowBytes (w : Nat) (d : RowDesc) (write : Bool) : List (Nat × Nat) :=
  let op := slotOp w
  ((rowOperands w d).filter fun o => opStage o.word && (o.write = write || (!write && (op = 2 || op = 3)))).flatMap
      (fun o => (List.range o.rows).flatMap (d.rowRanges o.word)) ++
    (if !write ∧ (op = 1 ∨ op = 4 ∨ op = 5) then
      [(opAddr d.segRow, 2 * d.rows), (opAddr d.segCol, 2 * d.len)] else []) ++
    (if (op = 9 ∧ write) ∨ (op = 10 ∧ !write) then [(opAddr (d.word 0), 8 * d.rows)] else [])

/-- The accumulator entries that an operation reads or writes, in the context's numbering. -/
def rowEntries (w : Nat) (d : RowDesc) (writes : Bool) : List Nat :=
  ((rowOperands w d).filter fun o => !opStage o.word && (!writes || o.write)).flatMap fun o =>
    (List.range o.rows).flatMap fun r => (List.range d.len).map fun c => opEntry o.word + r * d.pitch + c

/-- Whether an operation uses side-memory entries. -/
def rowUsesSide (op : Nat) : Bool := op ≠ 2

/-- The descriptor that a slot names. -/
def State.rowDesc (s : State) (n x : Nat) (b : OpenBundle) (w : Nat) : RowDesc :=
  { bytes := s.readMem (.stage n) ((s.stageRegion n x).1 + b.sreg (bits w 29 5)) 64 }

/-- Whether the descriptor itself lies in the context's region. -/
def State.rowDescIn (s : State) (n x : Nat) (b : OpenBundle) (w : Nat) : Bool :=
  decide (b.sreg (bits w 29 5) + 64 ≤ (s.stageRegion n x).2)

/-- The interlocks of a row operation: R92, R111, R149. -/
def State.rowReady (s : State) (n x : Nat) (b : OpenBundle) (w : Nat) : Bool :=
  let k := (s.core n).nextXfer
  let base := (s.stageRegion n x).1
  let abase := (s.accRegion n x).1
  let at_ := base + b.sreg (bits w 29 5)
  if !s.rowDescIn n x b w then true
  else if s.stageReadWaits n k [(at_, 64)] then false
  else
    let d := s.rowDesc n x b w
    !s.stageReadWaits n k (shiftRanges base (rowBytes w d false)) &&
      !s.stageWriteWaits n k (shiftRanges base (rowBytes w d true)) &&
      !s.accBusy n k ((rowEntries w d false).map (abase + ·)) &&
      !s.accHeld n k ((rowEntries w d true).map (abase + ·))

/-- What a row operation will touch: its whole region when its descriptor cannot be read yet. -/
def State.rowFoot (s : State) (n x : Nat) (b : OpenBundle) (w : Nat) (behind : Bool) : Foot :=
  let base := (s.stageRegion n x).1
  if behind ∨ s.rowDescIn n x b w = false ∨
      s.stageReadWaits n (s.core n).nextXfer [(base + b.sreg (bits w 29 5), 64)] then s.wholeFoot n x true true true
  else
    let d := s.rowDesc n x b w
    let acc (writes : Bool) := (rowEntries w d writes).map fun e => ((s.accRegion n x).1 + e, 1)
    { reads := (base + b.sreg (bits w 29 5), 64) :: shiftRanges base (rowBytes w d false),
      writes := shiftRanges base (rowBytes w d true), accReads := acc false, accWrites := acc true }

/-! Arithmetic (R118). -/

/-- log2 e as the binary32 nearest to it (DEDUCED, log 26). -/
def log2e32 : Nat := 0x3FB8AA3B
/-- −∞. -/
def negInf32 : Nat := F32.inf true
/-- 1.0. -/
def one32 : Nat := 0x3F800000

/-- exp(x) := EXP2(round(x × log2 e)). -/
def rowExp (x : Nat) : Nat := (exp2Fixed (f32mul x log2e32)).1

/-- row_sum. -/
def rowSum (xs : List Nat) : Nat :=
  (chunks xs.length 128 xs).foldl (fun acc c =>
    f32add acc (tree (F32.add 0) 7 ((c ++ List.replicate (128 - c.length) 0x80000000).map fun v => (v, true))).1)
    0x80000000

/-- row_mean. -/
def rowMean (xs : List Nat) : Nat := f32div (rowSum xs) (f32of ⟨xs.length, 0⟩)

/-- Element-wise combination of two rows. -/
def row2 (f : Nat → Nat → Nat) (a b : List Nat) : List Nat := List.zipWith f a b

/-! Softmax. -/

/-- What one row of an operation leaves: its side-memory entry, its ALPHA, its output rows by operand word. -/
structure RowLine where
  side : Option (Nat × Nat)
  alpha : Option Nat
  outs : List (Nat × List Nat)
  deriving DecidableEq, Repr

/-- Which scores of a row are kept (R120): positions and segment IDs. -/
def keptScore (mode rowPos colPos segR segC x : Nat) : Bool :=
  (mode = 0 || mode = 2 || decide (colPos ≤ rowPos)) && (mode = 0 || mode = 1 || segR = segC) &&
    segR ≠ 0xFFFF && segC ≠ 0xFFFF && x ≠ negInf32

/-- smax_acc of R121 on scaled scores: new m, l, alpha and p. -/
def smaxRow (m l : Nat) (ys : List (Nat × Bool)) : Nat × Nat × Nat × List Nat :=
  let kept := (ys.filter (·.2)).map (·.1)
  if F32.isNan m ∨ kept.any (fun y => F32.isNan y || y = F32.inf false) then
    (F32.nan, F32.nan, F32.nan, ys.map fun _ => F32.nan)
  else
    let t := kept.foldl (fun a y => (F32.maximum a y).1) negInf32
    let mn := (F32.maximum m t).1
    if mn = negInf32 then (mn, l, one32, ys.map fun _ => 0)
    else
      let alpha := rowExp (f32sub m mn)
      let p := ys.map fun y => if y.2 then rowExp (f32sub y.1 mn) else 0
      (mn, f32add (f32mul l alpha) (rowSum p), alpha, p)

/-- The scaled scores of a row, with which are kept. -/
def scaledRow (scale mode rowPos colBase segR : Nat) (segC xs : List Nat) : List (Nat × Bool) :=
  (indexed 0 xs).map fun p =>
    (f32mul scale p.2, keptScore mode rowPos (colBase + p.1) segR (laneOf segC p.1) p.2)

/-- A row divided by its l: +0 throughout when nothing was kept (R122). -/
def finRow (l : Nat) (xs : List Nat) : List Nat :=
  if l = 0 then xs.map fun _ => 0 else xs.map fun x => f32mul x (f32div one32 l)

/-- SMAX.BWD of one row (R123): p and ds. -/
def smaxBwdRow (scale m l dd : Nat) (ys : List (Nat × Bool)) (dps : List Nat) : List Nat × List Nat :=
  if F32.isNan m ∨ F32.isNan l then (ys.map fun _ => F32.nan, ys.map fun _ => F32.nan)
  else if m = negInf32 then (ys.map fun _ => 0, ys.map fun _ => 0)
  else
    let inv := f32div one32 l
    let p := ys.map fun y => if y.2 then f32mul (rowExp (f32sub y.1 m)) inv else 0
    (p, row2 (fun p dp => f32mul scale (f32mul p (f32sub dp dd))) p dps)

/-! Normalization. -/

/-- NORM.FWD of one row (R124): μ, ρ and y. -/
def normFwdRow (rms : Bool) (eps : Nat) (xs gam bet : List Nat) : Nat × Nat × List Nat :=
  let mu := if rms then 0 else rowMean xs
  let dev := if rms then xs else xs.map fun x => f32sub x mu
  let rho := (rsqFixed (f32add (rowMean (dev.map fun d => f32mul d d)) eps)).1
  (mu, rho, row2 f32add (row2 f32mul ((xs.map fun x => f32sub x mu).map fun d => f32mul d rho) gam) bet)

/-- NORM.BWD of one row (R125): dx, and dy × x̂. -/
def normBwdRow (rms : Bool) (mu rho : Nat) (xs dys gam : List Nat) : List Nat × List Nat :=
  let xh := xs.map fun x => f32mul (f32sub x mu) rho
  let g := row2 f32mul dys gam
  let a := if rms then 0 else rowMean g
  let b := rowMean (row2 f32mul g xh)
  (row2 (fun g h => f32mul rho (f32sub (f32sub g a) (f32mul h b))) g xh, row2 f32mul dys xh)

/-! Reading and writing. -/

/-- Element `c` of row `r` of an operand: an accumulator entry, or a stage-buffer element widened from FMT (DEDUCED,
log 29), a binary64 being rounded first (R62), with scale and side list in a block-scaled format; one from a marked word
or entry or a poisoned group reads as NaN (R49, Table 6.4). -/
def State.rowElem (s : State) (n x : Nat) (d : RowDesc) (o r c : Nat) : Fed :=
  let k := r * d.pitch + c
  let a := opAddr o + k * fmtBits d.fmt / 8
  if opStage o then
    if fmtG d.fmt ≠ 0 then s.blockAt n x d.fmt 0 (d.rowAt o r) c
    else if fmtType d.fmt = 7 then
      let e := s.plainAt n x d.fmt 1 a 0
      (if e.2 then F32.nan else (F64.convert F32 0 e.1).1, e.2)
    else s.plainAt n x d.fmt 0 a (k % 2)
  else
    let p := (s.accRegion n x).1 + opEntry o + k
    let mark := Sparse.get false (s.core n).accPoison p
    (if mark then F32.nan else (Sparse.get 0 (s.core n).acc p).toNat, mark)

/-- Row `r` of an operand. -/
def State.rowVals (s : State) (n x : Nat) (d : RowDesc) (o r : Nat) : List Nat :=
  (List.range d.len).map fun c => (s.rowElem n x d o r c).1

/-- Whether any element that an operation reads carries a mark. -/
def State.rowMarked (s : State) (n x w : Nat) (d : RowDesc) : Bool :=
  ((rowOperands w d).filter fun o => !o.write || slotOp w = 2 || slotOp w = 3).any fun o =>
    (List.range o.rows).any fun r => (List.range d.len).any fun c => (s.rowElem n x d o.word r c).2

/-- Segment IDs from a vector in the stage buffer. -/
def State.segIds (s : State) (n x a k : Nat) : List Nat :=
  (List.range k).map fun i => s.readNum (.stage n) ((s.stageRegion n x).1 + a + 2 * i) 2

/-- The words of a context's side-memory entry. -/
def State.sideEntry (s : State) (n x e : Nat) : Nat × Nat :=
  let v := (Sparse.get 0 (s.core n).side ((s.sideRegion n x).1 + e)).toNat
  (v % 2 ^ 32, v / 2 ^ 32)

/-- One row of an operation (R119 to R125). -/
def State.rowLine (s : State) (n x w : Nat) (d : RowDesc) (r : Nat) : RowLine :=
  let v (i : Nat) := s.rowVals n x d (d.word i) r
  let vec (i : Nat) := s.rowVals n x d (d.word i) 0
  let e := s.sideEntry n x (rowSide w + r)
  let alpha := (Sparse.get 0 (s.core n).alpha (x * 128 + r)).toNat
  let scaled :=
    scaledRow d.scale (rowMode w) (d.rowBase + r) d.colBase (laneOf (s.segIds n x (opAddr d.segRow) d.rows) r)
      (s.segIds n x (opAddr d.segCol) d.len) (v 0)
  match slotOp w with
  | 1 =>
    let r := smaxRow (if bit w 38 then negInf32 else e.1) (if bit w 38 then 0 else e.2) scaled
    ⟨some (r.1, r.2.1), some r.2.2.1, [(d.word 3, r.2.2.2)]⟩
  | 2 => ⟨none, none, [(d.word 0, (v 0).map fun y => f32mul y alpha)]⟩
  | 3 => ⟨none, none, [(d.word 0, finRow e.2 (v 0))]⟩
  | 4 =>
    let r := smaxRow negInf32 0 scaled
    ⟨some (r.1, r.2.1), none, [(d.word 3, finRow r.2.1 r.2.2.2)]⟩
  | 5 =>
    let dd := (s.sideEntry n x (Config.dotEntry (rowSide w) d.rows r).toNat).1
    let q := smaxBwdRow d.scale e.1 e.2 dd scaled (v 1)
    ⟨none, none, [(d.word 2, q.1), (d.word 3, q.2)]⟩
  | 6 => ⟨some (rowSum (row2 f32mul (v 0) (v 1)), 0), none, []⟩
  | 7 =>
    let q := normFwdRow (rowRms w) d.scale (v 0) (vec 1) (vec 2)
    ⟨some (q.1, q.2.1), none, [(d.word 3, q.2.2)]⟩
  | 8 =>
    let q := normBwdRow (rowRms w) e.1 e.2 (v 0) (v 1) (vec 2)
    ⟨none, none, (d.word 3, q.1) ::
      (if rowExtra w then [(d.segRow, q.2), (d.segCol, v 1)] else [])⟩
  | _ => ⟨none, none, []⟩

/-- What the conversion of rows to the stage buffer gives: codes at their addresses, plane bytes, flags, saturations. -/
structure RowOut where
  codes : List (Nat × Nat × Nat)
  planes : List (Nat × Bytes)
  flags : Nat
  sats : Nat
  deriving DecidableEq, Repr

/-- One output row converted to the stage buffer under FMT: element by element, or, in a block-scaled format, group by
group, the last padded with zeros (R52, R56, R64, R117). `base` is the region's first byte. -/
def RowDesc.convert (d : RowDesc) (md : RMode) (base o r : Nat) (xs : List Nat) : RowOut :=
  let f := d.fmt
  let ix (c : Nat) : Nat := ((d.rowBase + r) * d.len + d.colBase + c) % 2 ^ 48
  if fmtG f = 0 then
    let cs := (indexed 0 xs).map fun e =>
      (e.1, if fmtType f = 7 then ((F32.convert F64 0 e.2).1, 0) else toShort f md (ix e.1) 0xA0 e.2)
    { codes := cs.map fun c => (opAddr o + (r * d.pitch + c.1) * fmtBits f / 8, c.2.1, (r * d.pitch + c.1) % 2),
      planes := [], flags := cs.foldl (fun a c => a ||| c.2.2) 0, sats := (cs.filter fun c => c.2.2 % 2 = 1).length }
  else
    let gs := (indexed 0 (chunks xs.length (fmtG f) xs)).map fun p =>
      (p.1, convertGroup f md none (fun i => ix (p.1 * fmtG f + i)) (padNats (fmtG f) p.2))
    { codes := gs.flatMap fun g => (indexed (g.1 * fmtG f) g.2.codes).map fun c =>
        (d.rowAt o r + c.1 * fmtBits f / 8, c.2, c.1 % 2),
      planes := planeWrites f base (d.rowAt o r) gs,
      flags := gs.foldl (fun a g => a ||| g.2.flags) 0, sats := gs.foldl (fun a g => a + g.2.sats) 0 }

/-- Writes output rows: binary32 to accumulator entries, or converted to the stage buffer with statistics (R117). -/
def State.rowStore (s : State) (n x : Nat) (b : OpenBundle) (d : RowDesc) (l : List (Nat × Nat × List Nat)) : State :=
  let md : RMode := if d.sr then .sr (s.ctx n x).seed.toNat d.tensor b.step else .rne
  let abase := (s.accRegion n x).1
  let accs := l.filter fun p => !opStage p.2.1
  let s := s.modCore n fun k => accs.foldl (fun k p =>
    (indexed (abase + opEntry p.2.1 + p.1 * d.pitch) p.2.2).foldl (fun k e =>
      { k with acc := Sparse.set 0 k.acc e.1 (BitVec.ofNat 32 e.2)
               accPoison := Sparse.del k.accPoison e.1 }) k) k
  let stage := l.filter fun p => opStage p.2.1
  let outs := stage.map fun p => d.convert md (s.stageRegion n x).1 p.2.1 p.1 p.2.2
  if stage = [] then s
  else
    ((s.storeCodes n x d.fmt (outs.flatMap (·.codes))).writeStage n (outs.flatMap (·.planes))).converted n x b
      (outs.foldl (fun a e => a ||| e.flags) 0) d.slot
      (statOf (stage.flatMap fun p => p.2.2) (outs.foldl (fun a e => a + e.sats) 0))

/-- Runs a row operation whose checks have passed. -/
def State.rowRun (n x : Nat) (b : OpenBundle) (w : Nat) (d : RowDesc) (s : State) : State :=
  let lines := (List.range d.rows).map fun r => (r, s.rowLine n x w d r)
  let marked := s.rowMarked n x w d
  let sbase := (s.sideRegion n x).1 + rowSide w
  let s := s.modCore n fun k => lines.foldl (fun k p =>
    let k := match p.2.side with
      | some e => { k with side := Sparse.put k.side (sbase + p.1) (BitVec.ofNat 64 (e.1 + e.2 * 2 ^ 32)) }
      | none => k
    match p.2.alpha with
    | some a => { k with alpha := Sparse.put k.alpha (x * 128 + p.1) (BitVec.ofNat 32 a) }
    | none => k) k
  let s := s.rowStore n x b d (lines.flatMap fun p => p.2.outs.map fun o => (p.1, o.1, o.2))
  if marked then (s.raise n flPoison).note n x 0x20 b.off b.tag else s

/-- STAT.SAVE: side-memory entries into the stage buffer. -/
def State.statSave (n x : Nat) (_ : OpenBundle) (w : Nat) (d : RowDesc) (s : State) : State :=
  let sbase := (s.sideRegion n x).1 + rowSide w
  s.writeMem (.stage n) ((s.stageRegion n x).1 + opAddr (d.word 0))
    ((List.range d.rows).flatMap fun r => leBytes 8 (Sparse.get 0 (s.core n).side (sbase + r)).toNat)

/-- STAT.LOAD: stage-buffer data into side-memory entries, from the entry that SIDE names (DEDUCED, log 28); a
marked word reads as NaN. -/
def State.statLoad (n x : Nat) (b : OpenBundle) (w : Nat) (d : RowDesc) (s : State) : State :=
  let sbase := (s.sideRegion n x).1 + rowSide w
  let a := (s.stageRegion n x).1 + opAddr (d.word 0)
  let l := (List.range d.rows).map fun r =>
    (sbase + r, s.readNum (.stage n) (a + 8 * r) 8, s.marked (.stage n) (a + 8 * r) 8)
  let s := s.modCore n fun k => { k with side := l.foldl (fun m e =>
    Sparse.put m e.1 (BitVec.ofNat 64 (if e.2.2 then F32.nan + F32.nan * 2 ^ 32 else e.2.1))) k.side }
  if l.any (·.2.2) then (s.raise n flPoison).note n x 0x20 b.off b.tag else s

/-- A row-engine address outside the context's region: ROW.FAULT, an event and HALT_EXEC (R109, R131, R166). -/
def State.rowDenied (s : State) (n x : Nat) (b : OpenBundle) : State :=
  let k := Reg.rowFault n
  let s := if bit (s.reg k) 0 then s
    else s.setReg k (1 + 0x300 + (recTag x b.off b.tag).toNat * 2 ^ 32)
  let s := s.ctxEvent n x 0x05 0x03 b.off b.tag (openPayload 0x05 0x03 (s.ctx n x).act s.now)
  (s.note n x 0x03 b.off b.tag).haltStream n x 6

/-- Operations that work on one tile hold at most 128 rows (SMAX.ACC, SMAX.SCALE), and SMAX.ACC 128 columns (DEDUCED,
log 25). -/
def rowShapeOk (w : Nat) (d : RowDesc) : Bool :=
  let op := slotOp w
  let stage := (rowOperands w d).any fun o => opStage o.word
  fmtLegal d.fmt && (!stage || fmtConv d.fmt) &&
    !((op = 1 || op = 2) && decide (128 < d.rows)) && !(op = 1 && decide (128 < d.len))

/-- A row operation with its checks at issue (R39, R109, R156, R208). ROW.FAULT records stage-buffer addresses; an
accumulator or side-memory entry outside the context's region is recorded in SEQ.FAULT alone (DESIGN CHOICE, log 155). -/
def State.rowOp (n x : Nat) (run : OpenBundle → Nat → RowDesc → State → State) (b : OpenBundle) (w : Nat) (s : State) :
    State :=
  if !s.rowDescIn n x b w then s.rowDenied n x b
  else
    let d := s.rowDesc n x b w
    let size := (s.stageRegion n x).2
    let last := rowSide w + d.rows - 1
    if !rowShapeOk w d ∨ (rowUsesSide (slotOp w) ∧ 16383 < last) then s.slotFault n x b 6 0x02
    else if (rowBytes w d false ++ rowBytes w d true).any (fun r => decide (size < r.1 + r.2)) then s.rowDenied n x b
    else if (rowEntries w d false).any (fun e => decide ((s.accRegion n x).2 ≤ e)) ∨
        (rowUsesSide (slotOp w) ∧ (s.sideRegion n x).2 ≤ last) then s.slotFault n x b 6 0x03
    else run b w d s

/-- A ROW operation in the shared slot form. -/
def State.row (s : State) (n : Nat) (c : CtxIn) (op : Nat) (run : OpenBundle → Nat → RowDesc → State → State) : State :=
  s.onUnit n c.x 6 op (fun s b w => s.rowReady n c.x b w) (fun s b w behind => s.rowFoot n c.x b w behind)
    (State.unlessUe n c.x c.ue (State.rowOp n c.x run))

/-! Meanings. -/

/-- SMAX.ACC. -/
def execSmaxAcc (core : Nat) (ctx : CtxIn) (s : State) : Host.Outcome State Fault Refusal :=
  whenUnits s (okCore core && okCtx ctx.x) (s.row core ctx 1 (State.rowRun core ctx.x))
/-- SMAX.SCALE. -/
def execSmaxScale (core : Nat) (ctx : CtxIn) (s : State) : Host.Outcome State Fault Refusal :=
  whenUnits s (okCore core && okCtx ctx.x) (s.row core ctx 2 (State.rowRun core ctx.x))
/-- SMAX.FIN. -/
def execSmaxFin (core : Nat) (ctx : CtxIn) (s : State) : Host.Outcome State Fault Refusal :=
  whenUnits s (okCore core && okCtx ctx.x) (s.row core ctx 3 (State.rowRun core ctx.x))
/-- SMAX.FULL: the statistics of the whole row, and P = p̃ × round(1 / l) (DEDUCED, log 30). -/
def execSmaxFull (core : Nat) (ctx : CtxIn) (s : State) : Host.Outcome State Fault Refusal :=
  whenUnits s (okCore core && okCtx ctx.x) (s.row core ctx 4 (State.rowRun core ctx.x))
/-- SMAX.BWD. -/
def execSmaxBwd (core : Nat) (ctx : CtxIn) (s : State) : Host.Outcome State Fault Refusal :=
  whenUnits s (okCore core && okCtx ctx.x) (s.row core ctx 5 (State.rowRun core ctx.x))
/-- DOT. -/
def execDot (core : Nat) (ctx : CtxIn) (s : State) : Host.Outcome State Fault Refusal :=
  whenUnits s (okCore core && okCtx ctx.x) (s.row core ctx 6 (State.rowRun core ctx.x))
/-- NORM.FWD. -/
def execNormFwd (core : Nat) (ctx : CtxIn) (s : State) : Host.Outcome State Fault Refusal :=
  whenUnits s (okCore core && okCtx ctx.x) (s.row core ctx 7 (State.rowRun core ctx.x))
/-- NORM.BWD. -/
def execNormBwd (core : Nat) (ctx : CtxIn) (s : State) : Host.Outcome State Fault Refusal :=
  whenUnits s (okCore core && okCtx ctx.x) (s.row core ctx 8 (State.rowRun core ctx.x))
/-- STAT.SAVE. -/
def execStatSave (core : Nat) (ctx : CtxIn) (s : State) : Host.Outcome State Fault Refusal :=
  whenUnits s (okCore core && okCtx ctx.x) (s.row core ctx 9 (State.statSave core ctx.x))
/-- STAT.LOAD. -/
def execStatLoad (core : Nat) (ctx : CtxIn) (s : State) : Host.Outcome State Fault Refusal :=
  whenUnits s (okCore core && okCtx ctx.x) (s.row core ctx 10 (State.statLoad core ctx.x))

end Sys2Proof.Machine
end

