-- ==== Sys2Proof/Machine/Sort.lean ====
section
/-! DEFINITION. The sort unit (R114 to R116). -/

namespace Sys2Proof.Machine

/-- A key's rank in ascending order under a key mode: 0 F32, 1 ABS32, 2 I32, 3 U32 (R114). -/
def sortRank (mode key : Nat) : Int :=
  match mode with
  | 0 => if F32.isNan key then 2 ^ 32 else F32.rank key
  | 1 => if F32.isNan key then 2 ^ 32 else (F32.mag key : Int)
  | 2 => toSigned 32 key
  | _ => (key : Int)

/-- Whether pair `a` comes no later than pair `b`: by key in the chosen direction, then by lower index. -/
def sortLe (mode : Nat) (desc : Bool) (a b : Word32 × Word32) : Bool :=
  let x := sortRank mode a.1.toNat
  let y := sortRank mode b.1.toNat
  if x = y then decide (a.2.toNat ≤ b.2.toNat) else if desc then decide (y < x) else decide (x < y)

/-- Merges two ordered lists; the first argument bounds the steps. -/
def mergeBy {α : Type} (le : α → α → Bool) : Nat → List α → List α → List α
  | _, [], l => l
  | _, l, [] => l
  | 0, l, m => l ++ m
  | k + 1, a :: l, b :: m => if le a b then a :: mergeBy le k l (b :: m) else b :: mergeBy le k (a :: l) m

/-- Sorts a list of at most 2^k elements. -/
def sortBy {α : Type} (le : α → α → Bool) : Nat → List α → List α
  | 0, l => l
  | k + 1, l =>
    if l.length ≤ 1 then l
    else mergeBy le l.length (sortBy le k (l.take (l.length / 2))) (sortBy le k (l.drop (l.length / 2)))

/-- The capacity of the load buffer and of the retained list (R115). -/
def sortCap : Nat := 4096

/-- SORT.LOAD: the active lanes' pairs into the next 128 positions. A load past the buffer's last position has no
stated effect: the buffer's content is then open (log 23). -/
def State.sortLoad (n w : Nat) (s : State) : State :=
  let a := s.vecRead n 0 (vecVa w)
  let b := s.vecRead n 0 (vecVb w)
  let u := (s.core n).sort
  if sortCap < u.filled + 128 then
    (s.modCore n fun k => { k with sort := { u with load := (List.range sortCap).map fun i =>
      (i, Config.sortOpen s.free (2 * i), some (Config.sortOpen s.free (2 * i + 1))) } }).drawn
  else
    let new := (s.activeLanes n 0 w).map fun i =>
      (u.filled + i, BitVec.ofNat 32 (laneOf a i),
        if bit w 22 then none else some (BitVec.ofNat 32 (laneOf b i)))
    s.modCore n fun k => { k with sort := { u with load := u.load ++ new, filled := u.filled + 128 } }

/-- SORT.RUN and SORT.MERGE take the load buffer. A generated index is the pair's position in the segment modulo
2^20, and a RUN starts the segment with its own block (DEDUCED, log 24). -/
def State.sortStart (merge : Bool) (n w : Nat) (s : State) : State :=
  s.modCore n fun k =>
    let u := k.sort
    let base := if merge then u.position else 0
    { k with sort := { u with
        block := u.load.map fun p =>
          (p.2.1, match p.2.2 with | some i => i | none => BitVec.ofNat 32 ((base + p.1) % 2 ^ 20))
        load := [], filled := 0, position := base + u.filled,
        running := some (merge, bits w 20 2, bit w 19) } }

/-- The running operation finishes: the sorted block becomes the retained list, or is merged into it (R115). -/
def State.sortDone (s : State) (n : Nat) : State :=
  match (s.core n).sort.running with
  | none => s
  | some (merge, mode, desc) =>
    s.modCore n fun k =>
      let u := k.sort
      { k with sort := { u with
          retained := (sortBy (sortLe mode desc) 14 ((if merge then u.retained else []) ++ u.block)).take sortCap
          block := [], running := none, outPos := 0 } }

/-- SORT.OUT: the next 128 retained pairs into two registers; a lane past the last pair receives an open value
(log 23). -/
def State.sortOut (n w : Nat) (s : State) : State :=
  let u := (s.core n).sort
  let pair (i : Nat) : Word32 × Word32 :=
    (u.retained[u.outPos + i]?).getD (Config.sortOpen s.free (2 * i), Config.sortOpen s.free (2 * i + 1))
  let put (r : Nat) (f : Word32 × Word32 → Word32) (s : State) : State :=
    s.vecWrite n 0 r (map32 (s.lane n 0 w) (s.vecRead n 0 r) fun i => ((f (pair i)).toNat, 0)).1
  (((put (vecVd w) (·.1) s) |> put (vecVb w) (·.2)).modCore n fun k =>
    { k with sort := { k.sort with outPos := u.outPos + 128 } }).drawn

/-- Whether no RUN or MERGE is running. -/
def State.sortFree (s : State) (n : Nat) : Bool := (s.core n).sort.running.isNone

/-! Meanings. -/

/-- SORT.LOAD. -/
def execSortLoad (core ctx : Nat) (s : State) : Host.Outcome State Fault Refusal :=
  whenUnits s (okCore core && okCtx ctx) (s.onUnit core ctx 5 0x2E always noFoot fun _ w => State.sortLoad core w)
/-- SORT.RUN waits for the unit. -/
def execSortRun (core ctx : Nat) (s : State) : Host.Outcome State Fault Refusal :=
  whenUnits s (okCore core && okCtx ctx)
    (s.onUnit core ctx 5 0x2F (fun s _ _ => s.sortFree core) noFoot fun _ w => State.sortStart false core w)
/-- SORT.MERGE waits for the unit. -/
def execSortMerge (core ctx : Nat) (s : State) : Host.Outcome State Fault Refusal :=
  whenUnits s (okCore core && okCtx ctx)
    (s.onUnit core ctx 5 0x36 (fun s _ _ => s.sortFree core) noFoot fun _ w => State.sortStart true core w)
/-- SORT_DONE. -/
def execSortDone (core : Nat) (s : State) : Host.Outcome State Fault Refusal :=
  whenUnits s (okCore core) (s.sortDone core)
/-- SORT.OUT waits for a RUN or MERGE. -/
def execSortOut (core ctx : Nat) (s : State) : Host.Outcome State Fault Refusal :=
  whenUnits s (okCore core && okCtx ctx)
    (s.onUnit core ctx 5 0x37 (fun s _ _ => s.sortFree core) noFoot fun _ w => State.sortOut core w)

end Sys2Proof.Machine
end

