-- ==== Sys2Proof/Machine/Vector.lean ====
section
/-! DEFINITION. The VEC slot's register operations: arithmetic, fixed functions, integers, conversions,
comparisons, masks, lane movement and reductions (R106, R107, R112, R113). -/

namespace Sys2Proof.Machine

/-- A VEC operation in the shared slot form. -/
def State.vec (s : State) (n x op : Nat) (eff : Nat → State → State) : State :=
  s.onUnit n x 5 op always noFoot fun _ w => eff w

/-- An operation on masks: destination bits of active lanes take `f`'s results (Table 4.1). -/
def State.maskOp (f : Bool → Bool → Bool) (n x w : Nat) (s : State) : State :=
  let k := s.core n
  let a := k.mask x (bits w 35 3)
  let b := k.mask x (bits w 29 3)
  let old := k.mask x (bits w 41 3)
  s.maskWrite n x (bits w 41 3) fun i =>
    if s.lane n x w i then f (a.getLsbD i) (b.getLsbD i) else old.getLsbD i

/-- CMP: mask bits of active lanes take the comparison; a binary64 comparison writes bit 2j (R104). -/
def State.vecCompare (n x w : Nat) (s : State) : State :=
  let a := s.vecRead n x (vecVa w)
  let b := s.vecRead n x (vecVb w)
  let old := (s.core n).mask x (bits w 41 3)
  let cond := bits w 20 3
  let one (i : Nat) : Bool × Nat :=
    if vecTy w = 0 then F32.compare cond (laneOf a i) (laneOf b i)
    else if vecTy w = 1 then F64.compare cond (elem64 a (i / 2)) (elem64 b (i / 2))
    else (intCompare (vecTy w = 2) cond (laneOf a i) (laneOf b i), 0)
  let live (i : Nat) : Bool := s.lane n x w i && (vecTy w ≠ 1 || i % 2 = 0)
  let flags := ((List.range 128).filter live).foldl (fun f i => f ||| (one i).2) 0
  (s.maskWrite n x (bits w 41 3) fun i => if live i then (one i).1 else old.getLsbD i).raise n flags

/-- CVT: with one binary64 side, element j is lane 2j of the 32-bit side (DEDUCED, log 14). -/
def State.vecConvert (n x w : Nat) (s : State) : State :=
  let a := s.vecRead n x (vecVa w)
  let old := s.vecRead n x (vecVd w)
  let src := bits w 21 2
  let dst := vecTy w
  let rd := s.rdir n
  let r :=
    if dst = 1 then
      map64 (s.lane n x w) old fun j =>
        convertLane rd src 1 (if src = 1 then elem64 a j else laneOf a (2 * j))
    else if src = 1 then
      map32 (fun i => s.lane n x w i && i % 2 = 0) old fun i => convertLane rd 1 dst (elem64 a (i / 2))
    else map32 (s.lane n x w) old fun i => convertLane rd src dst (laneOf a i)
  (s.vecWrite n x (vecVd w) r.1).raise n r.2

/-- BCAST and IOTA: each active lane takes a word of its number and the scalar's low word. -/
def State.vecScalar (f : Nat → Nat → Nat) (n x : Nat) (b : OpenBundle) (w : Nat) (s : State) : State :=
  let v := bits (b.sreg (bits w 18 5)) 0 32
  s.vecWrite n x (vecVd w)
    (map32 (s.lane n x w) (s.vecRead n x (vecVd w)) fun i => (f i v % 2 ^ 32, 0)).1

/-- COMPRESS (R112). -/
def State.vecCompress (n x w : Nat) (s : State) : State :=
  let a := s.vecRead n x (vecVa w)
  let l := (s.activeLanes n x w).map (laneOf a)
  s.vecWrite n x (vecVd w) (l ++ List.replicate (128 - l.length) 0)

/-- EXPAND (R112). -/
def State.vecExpand (n x w : Nat) (s : State) : State :=
  let a := s.vecRead n x (vecVa w)
  let act := s.activeLanes n x w
  s.vecWrite n x (vecVd w)
    (map32 (s.lane n x w) (s.vecRead n x (vecVd w)) fun i =>
      (laneOf a (act.filter fun l => decide (l < i)).length, 0)).1

/-- RISUM: the exact 64-bit signed sum of int32 lanes (Table 4.2). -/
def State.vecIntSum (n x w : Nat) (s : State) : State :=
  let a := s.vecRead n x (vecVa w)
  s.setSreg n x (bits w 41 5)
    (ofSigned 64 ((s.activeLanes n x w).foldl (fun t i => t + toSigned 32 (laneOf a i)) 0))

/-! Meanings. -/

/-- ADD. -/
def execAdd (core ctx : Nat) (s : State) : Host.Outcome State Fault Refusal :=
  whenUnits s (okCore core && okCtx ctx) (s.vec core ctx 0x01 (State.vecFloat (fun F r a b _ => F.add r a b) core ctx))

/-- SUB. -/
def execSub (core ctx : Nat) (s : State) : Host.Outcome State Fault Refusal :=
  whenUnits s (okCore core && okCtx ctx) (s.vec core ctx 0x02 (State.vecFloat (fun F r a b _ => F.sub r a b) core ctx))

/-- MUL. -/
def execMul (core ctx : Nat) (s : State) : Host.Outcome State Fault Refusal :=
  whenUnits s (okCore core && okCtx ctx) (s.vec core ctx 0x03 (State.vecFloat (fun F r a b _ => F.mul r a b) core ctx))

/-- FMA: VA × VB + VC with one rounding. -/
def execFma (core ctx : Nat) (s : State) : Host.Outcome State Fault Refusal :=
  whenUnits s (okCore core && okCtx ctx) (s.vec core ctx 0x04 (State.vecFloat (IFmt.fma) core ctx))

/-- MIN. -/
def execMin (core ctx : Nat) (s : State) : Host.Outcome State Fault Refusal :=
  whenUnits s (okCore core && okCtx ctx) (s.vec core ctx 0x05 (State.vecFloat (fun F _ a b _ => F.minimum a b) core ctx))

/-- MAX. -/
def execMax (core ctx : Nat) (s : State) : Host.Outcome State Fault Refusal :=
  whenUnits s (okCore core && okCtx ctx) (s.vec core ctx 0x06 (State.vecFloat (fun F _ a b _ => F.maximum a b) core ctx))

/-- ABS clears the sign (log 20). -/
def execAbs (core ctx : Nat) (s : State) : Host.Outcome State Fault Refusal :=
  whenUnits s (okCore core && okCtx ctx) (s.vec core ctx 0x07 (State.vecFloat (fun F _ a _ _ => (F.mag a, 0)) core ctx))

/-- NEG changes the sign (log 20). -/
def execNeg (core ctx : Nat) (s : State) : Host.Outcome State Fault Refusal :=
  whenUnits s (okCore core && okCtx ctx) (s.vec core ctx 0x08 (State.vecFloat (fun F _ a _ _ => (F.negate a, 0)) core ctx))

/-- CPYSGN. -/
def execCpysgn (core ctx : Nat) (s : State) : Host.Outcome State Fault Refusal :=
  whenUnits s (okCore core && okCtx ctx) (s.vec core ctx 0x09 (State.vecFloat (fun F _ a b _ => (F.copySign a b, 0)) core ctx))

/-- DIV. -/
def execDiv (core ctx : Nat) (s : State) : Host.Outcome State Fault Refusal :=
  whenUnits s (okCore core && okCtx ctx) (s.vec core ctx 0x0A (State.vecFloat (fun F r a b _ => F.div r a b) core ctx))

/-- SQRT. -/
def execSqrt (core ctx : Nat) (s : State) : Host.Outcome State Fault Refusal :=
  whenUnits s (okCore core && okCtx ctx) (s.vec core ctx 0x0B (State.vecFloat (fun F r a _ _ => F.sqrt r a) core ctx))

/-- EXP2. -/
def execExp2 (core ctx : Nat) (s : State) : Host.Outcome State Fault Refusal :=
  whenUnits s (okCore core && okCtx ctx) (s.vec core ctx 0x0C (State.vecFloat (fun _ _ a _ _ => exp2Fixed a) core ctx))

/-- LOG2. -/
def execLog2 (core ctx : Nat) (s : State) : Host.Outcome State Fault Refusal :=
  whenUnits s (okCore core && okCtx ctx) (s.vec core ctx 0x0D (State.vecFloat (fun _ _ a _ _ => log2Fixed a) core ctx))

/-- RCP. -/
def execRcp (core ctx : Nat) (s : State) : Host.Outcome State Fault Refusal :=
  whenUnits s (okCore core && okCtx ctx) (s.vec core ctx 0x0E (State.vecFloat (fun _ _ a _ _ => rcpFixed a) core ctx))

/-- RSQ. -/
def execRsq (core ctx : Nat) (s : State) : Host.Outcome State Fault Refusal :=
  whenUnits s (okCore core && okCtx ctx) (s.vec core ctx 0x0F (State.vecFloat (fun _ _ a _ _ => rsqFixed a) core ctx))

/-- IADD. -/
def execIadd (core ctx : Nat) (s : State) : Host.Outcome State Fault Refusal :=
  whenUnits s (okCore core && okCtx ctx) (s.vec core ctx 0x10 (State.vecInt (fun _ a b => a + b) core ctx))

/-- ISUB. -/
def execIsub (core ctx : Nat) (s : State) : Host.Outcome State Fault Refusal :=
  whenUnits s (okCore core && okCtx ctx) (s.vec core ctx 0x11 (State.vecInt (fun _ a b => a + 2 ^ 32 - b) core ctx))

/-- IMUL keeps the low 32 bits. -/
def execImul (core ctx : Nat) (s : State) : Host.Outcome State Fault Refusal :=
  whenUnits s (okCore core && okCtx ctx) (s.vec core ctx 0x12 (State.vecInt (fun _ a b => a * b) core ctx))

/-- IMIN. -/
def execImin (core ctx : Nat) (s : State) : Host.Outcome State Fault Refusal :=
  whenUnits s (okCore core && okCtx ctx) (s.vec core ctx 0x13 (State.vecInt (fun sgn a b => if intCompare sgn 3 a b then a else b) core ctx))

/-- IMAX. -/
def execImax (core ctx : Nat) (s : State) : Host.Outcome State Fault Refusal :=
  whenUnits s (okCore core && okCtx ctx) (s.vec core ctx 0x14 (State.vecInt (fun sgn a b => if intCompare sgn 3 a b then b else a) core ctx))

/-- AND. -/
def execAnd (core ctx : Nat) (s : State) : Host.Outcome State Fault Refusal :=
  whenUnits s (okCore core && okCtx ctx) (s.vec core ctx 0x15 (State.vecInt (fun _ a b => a &&& b) core ctx))

/-- OR. -/
def execOr (core ctx : Nat) (s : State) : Host.Outcome State Fault Refusal :=
  whenUnits s (okCore core && okCtx ctx) (s.vec core ctx 0x16 (State.vecInt (fun _ a b => a ||| b) core ctx))

/-- XOR. -/
def execXor (core ctx : Nat) (s : State) : Host.Outcome State Fault Refusal :=
  whenUnits s (okCore core && okCtx ctx) (s.vec core ctx 0x17 (State.vecInt (fun _ a b => a ^^^ b) core ctx))

/-- SHL by the lane of VB. -/
def execShl (core ctx : Nat) (s : State) : Host.Outcome State Fault Refusal :=
  whenUnits s (okCore core && okCtx ctx) (s.vec core ctx 0x18 (State.vecInt (fun _ a b => shiftOr 0x18 a b (a <<< (b % 32))) core ctx))

/-- SHR by the lane of VB. -/
def execShr (core ctx : Nat) (s : State) : Host.Outcome State Fault Refusal :=
  whenUnits s (okCore core && okCtx ctx) (s.vec core ctx 0x19 (State.vecInt (fun _ a b => shiftOr 0x19 a b (a >>> (b % 32))) core ctx))

/-- SRA by the lane of VB. -/
def execSra (core ctx : Nat) (s : State) : Host.Outcome State Fault Refusal :=
  whenUnits s (okCore core && okCtx ctx) (s.vec core ctx 0x1A (State.vecInt (fun _ a b => shiftOr 0x1A a b (sra32 a (b % 32))) core ctx))

/-- CVT. -/
def execCvt (core ctx : Nat) (s : State) : Host.Outcome State Fault Refusal :=
  whenUnits s (okCore core && okCtx ctx) (s.vec core ctx 0x1B (State.vecConvert core ctx))

/-- CMP. -/
def execCmp (core ctx : Nat) (s : State) : Host.Outcome State Fault Refusal :=
  whenUnits s (okCore core && okCtx ctx) (s.vec core ctx 0x1C (State.vecCompare core ctx))

/-- MAND. -/
def execMand (core ctx : Nat) (s : State) : Host.Outcome State Fault Refusal :=
  whenUnits s (okCore core && okCtx ctx) (s.vec core ctx 0x20 (State.maskOp (fun a b => a && b) core ctx))

/-- MOR. -/
def execMor (core ctx : Nat) (s : State) : Host.Outcome State Fault Refusal :=
  whenUnits s (okCore core && okCtx ctx) (s.vec core ctx 0x21 (State.maskOp (fun a b => a || b) core ctx))

/-- MXOR. -/
def execMxor (core ctx : Nat) (s : State) : Host.Outcome State Fault Refusal :=
  whenUnits s (okCore core && okCtx ctx) (s.vec core ctx 0x22 (State.maskOp (fun a b => a != b) core ctx))

/-- MANDN. -/
def execMandn (core ctx : Nat) (s : State) : Host.Outcome State Fault Refusal :=
  whenUnits s (okCore core && okCtx ctx) (s.vec core ctx 0x23 (State.maskOp (fun a b => a && !b) core ctx))

/-- MNOT. -/
def execMnot (core ctx : Nat) (s : State) : Host.Outcome State Fault Refusal :=
  whenUnits s (okCore core && okCtx ctx) (s.vec core ctx 0x24 (State.maskOp (fun a _ => !a) core ctx))

/-- MSET. -/
def execMset (core ctx : Nat) (s : State) : Host.Outcome State Fault Refusal :=
  whenUnits s (okCore core && okCtx ctx) (s.vec core ctx 0x25 (State.maskOp (fun _ _ => true) core ctx))

/-- BCAST. -/
def execBcast (core ctx : Nat) (s : State) : Host.Outcome State Fault Refusal :=
  whenUnits s (okCore core && okCtx ctx) (s.onUnit core ctx 5 0x28 always noFoot (State.vecScalar (fun _ v => v) core ctx))

/-- IOTA: lane number plus the scalar, on 32-bit words (DEDUCED, log 21). -/
def execIota (core ctx : Nat) (s : State) : Host.Outcome State Fault Refusal :=
  whenUnits s (okCore core && okCtx ctx) (s.onUnit core ctx 5 0x29 always noFoot (State.vecScalar (fun i v => i + v) core ctx))

/-- COMPRESS. -/
def execCompress (core ctx : Nat) (s : State) : Host.Outcome State Fault Refusal :=
  whenUnits s (okCore core && okCtx ctx) (s.vec core ctx 0x2A (State.vecCompress core ctx))

/-- EXPAND. -/
def execExpand (core ctx : Nat) (s : State) : Host.Outcome State Fault Refusal :=
  whenUnits s (okCore core && okCtx ctx) (s.vec core ctx 0x2B (State.vecExpand core ctx))

/-- RSUM. -/
def execRsum (core ctx : Nat) (s : State) : Host.Outcome State Fault Refusal :=
  whenUnits s (okCore core && okCtx ctx) (s.vec core ctx 0x38 (State.vecReduce IFmt.add (fun F => F.zero true) false core ctx))

/-- RMAX. -/
def execRmax (core ctx : Nat) (s : State) : Host.Outcome State Fault Refusal :=
  whenUnits s (okCore core && okCtx ctx) (s.vec core ctx 0x39 (State.vecReduce (fun F _ a b => ((F.maximum a b).1, 0)) (fun F => F.inf true) false core ctx))

/-- RMIN. -/
def execRmin (core ctx : Nat) (s : State) : Host.Outcome State Fault Refusal :=
  whenUnits s (okCore core && okCtx ctx) (s.vec core ctx 0x3A (State.vecReduce (fun F _ a b => ((F.minimum a b).1, 0)) (fun F => F.inf false) false core ctx))

/-- RAMAX. -/
def execRamax (core ctx : Nat) (s : State) : Host.Outcome State Fault Refusal :=
  whenUnits s (okCore core && okCtx ctx) (s.vec core ctx 0x3B (State.vecReduce (fun F _ a b => ((F.maximum a b).1, 0)) (fun F => F.zero false) true core ctx))

/-- RISUM. -/
def execRisum (core ctx : Nat) (s : State) : Host.Outcome State Fault Refusal :=
  whenUnits s (okCore core && okCtx ctx) (s.vec core ctx 0x3C (State.vecIntSum core ctx))

/-- MPOPC. -/
def execMpopc (core ctx : Nat) (s : State) : Host.Outcome State Fault Refusal :=
  whenUnits s (okCore core && okCtx ctx) (s.vec core ctx 0x3D fun w s => s.setSreg core ctx (bits w 41 5) (s.activeLanes core ctx w).length)

end Sys2Proof.Machine
end

