-- ==== Sys2Proof/Machine/Dispatch.lean ====
section
/-! DEFINITION. One arm per command. -/

namespace Sys2Proof.Machine

def exec (i : Instr) (s : State) : Host.Outcome State Fault Refusal :=
  match i with
  -- register accesses
  | .registerWrite fn off size val => Sys2Proof.Machine.execRegisterWrite fn off size val s
  | .rcRead fn off size => Sys2Proof.Machine.execRcRead fn off size s
  | .unsupportedBar0Access fn off size => Sys2Proof.Machine.execUnsupportedBar0Access fn off size s
  | .tileNanClear core => Sys2Proof.Machine.execTileNanClear core s
  | .xpfaultClear core => Sys2Proof.Machine.execXpfaultClear core s
  | .vxFaultClear core => Sys2Proof.Machine.execVxFaultClear core s
  | .seqFaultClear core ctx => Sys2Proof.Machine.execSeqFaultClear core ctx s
  | .carPoisonClear act => Sys2Proof.Machine.execCarPoisonClear act s
  | .resInject core => Sys2Proof.Machine.execResInject core s
  | .accSplitApply core => Sys2Proof.Machine.execAccSplitApply core s
  -- bundles
  | .emptyBundle core ctx => Sys2Proof.Machine.execEmptyBundle core ctx s
  | .nop core ctx slot => Sys2Proof.Machine.execNop core ctx slot s
  | .bundleRetire core ctx => Sys2Proof.Machine.execBundleRetire core ctx s
  | .notify core ctx => Sys2Proof.Machine.execNotify core ctx s
  | .resumeRecord core ctx => Sys2Proof.Machine.execResumeRecord core ctx s
  | .runCountHalt q => Sys2Proof.Machine.execRunCountHalt q s
  -- matrix engines
  | .product core ctx e => Sys2Proof.Machine.execProduct core ctx e s
  | .weightLoad core e => Sys2Proof.Machine.execWeightLoad core e s
  | .activationRow core e mis => Sys2Proof.Machine.execActivationRow core e mis s
  | .productComplete core e => Sys2Proof.Machine.execProductComplete core e s
  | .expanderBlock core port how => Sys2Proof.Machine.execExpanderBlock core port how s
  | .tableFetchDone core port => Sys2Proof.Machine.execTableFetchDone core port s
  -- VEC slot
  | .add core ctx => Sys2Proof.Machine.execAdd core ctx s
  | .sub core ctx => Sys2Proof.Machine.execSub core ctx s
  | .mul core ctx => Sys2Proof.Machine.execMul core ctx s
  | .fma core ctx => Sys2Proof.Machine.execFma core ctx s
  | .min core ctx => Sys2Proof.Machine.execMin core ctx s
  | .max core ctx => Sys2Proof.Machine.execMax core ctx s
  | .abs core ctx => Sys2Proof.Machine.execAbs core ctx s
  | .neg core ctx => Sys2Proof.Machine.execNeg core ctx s
  | .cpysgn core ctx => Sys2Proof.Machine.execCpysgn core ctx s
  | .div core ctx => Sys2Proof.Machine.execDiv core ctx s
  | .sqrt core ctx => Sys2Proof.Machine.execSqrt core ctx s
  | .exp2 core ctx => Sys2Proof.Machine.execExp2 core ctx s
  | .log2 core ctx => Sys2Proof.Machine.execLog2 core ctx s
  | .rcp core ctx => Sys2Proof.Machine.execRcp core ctx s
  | .rsq core ctx => Sys2Proof.Machine.execRsq core ctx s
  | .iadd core ctx => Sys2Proof.Machine.execIadd core ctx s
  | .isub core ctx => Sys2Proof.Machine.execIsub core ctx s
  | .imul core ctx => Sys2Proof.Machine.execImul core ctx s
  | .imin core ctx => Sys2Proof.Machine.execImin core ctx s
  | .imax core ctx => Sys2Proof.Machine.execImax core ctx s
  | .and core ctx => Sys2Proof.Machine.execAnd core ctx s
  | .or core ctx => Sys2Proof.Machine.execOr core ctx s
  | .xor core ctx => Sys2Proof.Machine.execXor core ctx s
  | .shl core ctx => Sys2Proof.Machine.execShl core ctx s
  | .shr core ctx => Sys2Proof.Machine.execShr core ctx s
  | .sra core ctx => Sys2Proof.Machine.execSra core ctx s
  | .cvt core ctx => Sys2Proof.Machine.execCvt core ctx s
  | .cmp core ctx => Sys2Proof.Machine.execCmp core ctx s
  | .mand core ctx => Sys2Proof.Machine.execMand core ctx s
  | .mor core ctx => Sys2Proof.Machine.execMor core ctx s
  | .mxor core ctx => Sys2Proof.Machine.execMxor core ctx s
  | .mandn core ctx => Sys2Proof.Machine.execMandn core ctx s
  | .mnot core ctx => Sys2Proof.Machine.execMnot core ctx s
  | .mset core ctx => Sys2Proof.Machine.execMset core ctx s
  | .bcast core ctx => Sys2Proof.Machine.execBcast core ctx s
  | .iota core ctx => Sys2Proof.Machine.execIota core ctx s
  | .compress core ctx => Sys2Proof.Machine.execCompress core ctx s
  | .expand core ctx => Sys2Proof.Machine.execExpand core ctx s
  | .lda core ctx ue => Sys2Proof.Machine.execLda core ctx ue s
  | .sta core ctx => Sys2Proof.Machine.execSta core ctx s
  | .ld core ctx ue => Sys2Proof.Machine.execLd core ctx ue s
  | .st core ctx => Sys2Proof.Machine.execSt core ctx s
  | .ldx core ctx ue => Sys2Proof.Machine.execLdx core ctx ue s
  | .stc core ctx => Sys2Proof.Machine.execStc core ctx s
  | .gather core ctx ue => Sys2Proof.Machine.execGather core ctx ue s
  | .scatter core ctx => Sys2Proof.Machine.execScatter core ctx s
  | .rsum core ctx => Sys2Proof.Machine.execRsum core ctx s
  | .rmax core ctx => Sys2Proof.Machine.execRmax core ctx s
  | .rmin core ctx => Sys2Proof.Machine.execRmin core ctx s
  | .ramax core ctx => Sys2Proof.Machine.execRamax core ctx s
  | .risum core ctx => Sys2Proof.Machine.execRisum core ctx s
  | .mpopc core ctx => Sys2Proof.Machine.execMpopc core ctx s
  | .sortLoad core ctx => Sys2Proof.Machine.execSortLoad core ctx s
  | .sortRun core ctx => Sys2Proof.Machine.execSortRun core ctx s
  | .sortMerge core ctx => Sys2Proof.Machine.execSortMerge core ctx s
  | .sortDone core => Sys2Proof.Machine.execSortDone core s
  | .sortOut core ctx => Sys2Proof.Machine.execSortOut core ctx s
  -- ROW slot
  | .smaxAcc core ctx => Sys2Proof.Machine.execSmaxAcc core ctx s
  | .smaxScale core ctx => Sys2Proof.Machine.execSmaxScale core ctx s
  | .smaxFin core ctx => Sys2Proof.Machine.execSmaxFin core ctx s
  | .smaxFull core ctx => Sys2Proof.Machine.execSmaxFull core ctx s
  | .smaxBwd core ctx => Sys2Proof.Machine.execSmaxBwd core ctx s
  | .dot core ctx => Sys2Proof.Machine.execDot core ctx s
  | .normFwd core ctx => Sys2Proof.Machine.execNormFwd core ctx s
  | .normBwd core ctx => Sys2Proof.Machine.execNormBwd core ctx s
  | .statSave core ctx => Sys2Proof.Machine.execStatSave core ctx s
  | .statLoad core ctx => Sys2Proof.Machine.execStatLoad core ctx s
  -- CTRL slot
  | .sadd core ctx => Sys2Proof.Machine.execSadd core ctx s
  | .ssub core ctx => Sys2Proof.Machine.execSsub core ctx s
  | .smul core ctx => Sys2Proof.Machine.execSmul core ctx s
  | .sand core ctx => Sys2Proof.Machine.execSand core ctx s
  | .sor core ctx => Sys2Proof.Machine.execSor core ctx s
  | .sxor core ctx => Sys2Proof.Machine.execSxor core ctx s
  | .sshl core ctx => Sys2Proof.Machine.execSshl core ctx s
  | .sshr core ctx => Sys2Proof.Machine.execSshr core ctx s
  | .ssra core ctx => Sys2Proof.Machine.execSsra core ctx s
  | .smin core ctx => Sys2Proof.Machine.execSmin core ctx s
  | .smax core ctx => Sys2Proof.Machine.execSmax core ctx s
  | .sli core ctx => Sys2Proof.Machine.execSli core ctx s
  | .slih core ctx => Sys2Proof.Machine.execSlih core ctx s
  | .saddi core ctx => Sys2Proof.Machine.execSaddi core ctx s
  | .scmp core ctx => Sys2Proof.Machine.execScmp core ctx s
  | .sfcmp core ctx => Sys2Proof.Machine.execSfcmp core ctx s
  | .pand core ctx => Sys2Proof.Machine.execPand core ctx s
  | .por core ctx => Sys2Proof.Machine.execPor core ctx s
  | .pxor core ctx => Sys2Proof.Machine.execPxor core ctx s
  | .pnot core ctx => Sys2Proof.Machine.execPnot core ctx s
  | .br core ctx => Sys2Proof.Machine.execBr core ctx s
  | .brs core ctx => Sys2Proof.Machine.execBrs core ctx s
  | .loop core ctx => Sys2Proof.Machine.execLoop core ctx s
  | .breakif core ctx => Sys2Proof.Machine.execBreakif core ctx s
  | .slc core ctx => Sys2Proof.Machine.execSlc core ctx s
  | .acd core ctx => Sys2Proof.Machine.execAcd core ctx s
  | .sstep core ctx => Sys2Proof.Machine.execSstep core ctx s
  | .calllib core ctx => Sys2Proof.Machine.execCalllib core ctx s
  | .libraryReturn core ctx s1 s2 s3 => Sys2Proof.Machine.execLibraryReturn core ctx s1 s2 s3 s
  -- transfers and memory
  | .dinCopy core ctx => Sys2Proof.Machine.execDinCopy core ctx s
  | .doutCopy core ctx => Sys2Proof.Machine.execDoutCopy core ctx s
  | .drain core ctx => Sys2Proof.Machine.execDrain core ctx s
  | .drainConvert core ctx how => Sys2Proof.Machine.execDrainConvert core ctx how s
  | .transferDone core ctx idx how dieBad => Sys2Proof.Machine.execTransferDone core ctx idx how dieBad s
  | .nearRequest addr len write errors => Sys2Proof.Machine.execNearRequest addr len write errors s
  | .patrolScrub stack errors written => Sys2Proof.Machine.execPatrolScrub stack errors written s
  | .farCompletion port idx poison => Sys2Proof.Machine.execFarCompletion port idx poison s
  | .farRequestTimeout port idx => Sys2Proof.Machine.execFarRequestTimeout port idx s
  | .sbSideshowApply core => Sys2Proof.Machine.execSbSideshowApply core s
  -- SYNC slot
  | .fence core ctx => Sys2Proof.Machine.execFence core ctx s
  | .signal core ctx => Sys2Proof.Machine.execSignal core ctx s
  | .signalApply core ctx => Sys2Proof.Machine.execSignalApply core ctx s
  | .wait core ctx => Sys2Proof.Machine.execWait core ctx s
  | .waitDeadline core ctx => Sys2Proof.Machine.execWaitDeadline core ctx s
  | .cuewait core ctx => Sys2Proof.Machine.execCuewait core ctx s
  | .bucket core ctx => Sys2Proof.Machine.execBucket core ctx s
  | .event core ctx => Sys2Proof.Machine.execEvent core ctx s
  -- Show Clock, cues and acts
  | .refPpsEdge errPs => Sys2Proof.Machine.execRefPpsEdge errPs s
  | .ptpCommit tick => Sys2Proof.Machine.execPtpCommit tick s
  | .referenceLoss => Sys2Proof.Machine.execReferenceLoss s
  | .cueWrite fn entry word val => Sys2Proof.Machine.execCueWrite fn entry word val s
  | .cueFire entry => Sys2Proof.Machine.execCueFire entry s
  | .headlineRequest val => Sys2Proof.Machine.execHeadlineRequest val s
  | .headlineChange => Sys2Proof.Machine.execHeadlineChange s
  | .bubbleBegin core => Sys2Proof.Machine.execBubbleBegin core s
  | .bubbleEnd core => Sys2Proof.Machine.execBubbleEnd core s
  | .preemptAbandon core => Sys2Proof.Machine.execPreemptAbandon core s
  | .sideshowResume core => Sys2Proof.Machine.execSideshowResume core s
  | .shareWindowEnd held rebinds => Sys2Proof.Machine.execShareWindowEnd held rebinds s
  | .scrubComplete core => Sys2Proof.Machine.execScrubComplete core s
  | .ssRegionApply core => Sys2Proof.Machine.execSsRegionApply core s
  -- host interface and queues
  | .vfFlr k => Sys2Proof.Machine.execVfFlr k s
  | .pfFlr => Sys2Proof.Machine.execPfFlr s
  | .apertureRead fn off len => Sys2Proof.Machine.execApertureRead fn off len s
  | .apertureWrite fn off data => Sys2Proof.Machine.execApertureWrite fn off data s
  | .doorbell fn off size val => Sys2Proof.Machine.execDoorbell fn off size val s
  | .create fn => Sys2Proof.Machine.execCreate fn s
  | .start fn => Sys2Proof.Machine.execStart fn s
  | .stop fn => Sys2Proof.Machine.execStop fn s
  | .queueStopped q => Sys2Proof.Machine.execQueueStopped q s
  | .reset fn => Sys2Proof.Machine.execReset fn s
  | .resetDone q => Sys2Proof.Machine.execResetDone q s
  | .skip fn => Sys2Proof.Machine.execSkip fn s
  | .resume fn => Sys2Proof.Machine.execResume fn s
  | .destroy fn => Sys2Proof.Machine.execDestroy fn s
  | .commandEntryFetch q => Sys2Proof.Machine.execCommandEntryFetch q s
  | .streamBind q => Sys2Proof.Machine.execStreamBind q s
  | .streamEnd core ctx => Sys2Proof.Machine.execStreamEnd core ctx s
  | .cueEntry q => Sys2Proof.Machine.execCueEntry q s
  | .copyMessageArrive q => Sys2Proof.Machine.execCopyMessageArrive q s
  | .dinReceive core ctx idx readFailed => Sys2Proof.Machine.execDinReceive core ctx idx readFailed s
  | .msixTimer q => Sys2Proof.Machine.execMsixTimer q s
  | .msixUnmask fn vec => Sys2Proof.Machine.execMsixUnmask fn vec s
  | .evtTest sx => Sys2Proof.Machine.execEvtTest sx s
  -- input pipeline
  | .sampleFetch q => Sys2Proof.Machine.execSampleFetch q s
  | .tableLoadCommit tslot => Sys2Proof.Machine.execTableLoadCommit tslot s
  | .decodeDispatch m kind engine => Sys2Proof.Machine.execDecodeDispatch m kind engine s
  | .decodeComplete q count => Sys2Proof.Machine.execDecodeComplete q count s
  | .decodeBudgetTimeout q count => Sys2Proof.Machine.execDecodeBudgetTimeout q count s
  | .staleTimeout q count => Sys2Proof.Machine.execStaleTimeout q count s
  | .batchEmit q => Sys2Proof.Machine.execBatchEmit q s
  | .batchRelease q => Sys2Proof.Machine.execBatchRelease q s
  -- Carousel and optimizer
  | .bucketHandover core ctx => Sys2Proof.Machine.execBucketHandover core ctx s
  | .bucketStart m slot => Sys2Proof.Machine.execBucketStart m slot s
  | .scratchReadDone m slot => Sys2Proof.Machine.execScratchReadDone m slot s
  | .carouselBlockSend m slot => Sys2Proof.Machine.execCarouselBlockSend m slot s
  | .block p f => Sys2Proof.Machine.execBlock p f s
  | .rereq p f => Sys2Proof.Machine.execRereq p f s
  | .vote p f => Sys2Proof.Machine.execVote p f s
  | .optimizerTakeShard engine m slot => Sys2Proof.Machine.execOptimizerTakeShard engine m slot s
  | .optimizerCommit m slot => Sys2Proof.Machine.execOptimizerCommit m slot s
  | .gatherBlockReceive p f => Sys2Proof.Machine.execGatherBlockReceive p f s
  | .bucketPeerDeadline m slot => Sys2Proof.Machine.execBucketPeerDeadline m slot s
  -- fabric
  | .linkBlockReceive p b => Sys2Proof.Machine.execLinkBlockReceive p b s
  | .trainingComplete p => Sys2Proof.Machine.execTrainingComplete p s
  | .trainingTimeout p signal => Sys2Proof.Machine.execTrainingTimeout p signal s
  | .auth p f msg => Sys2Proof.Machine.execAuth p f msg s
  | .authTimeout p => Sys2Proof.Machine.execAuthTimeout p s
  | .rekey p => Sys2Proof.Machine.execRekey p s
  | .creditTimeout p vc cls => Sys2Proof.Machine.execCreditTimeout p vc cls s
  | .degradedReturn p => Sys2Proof.Machine.execDegradedReturn p s
  | .quarantineRetry p => Sys2Proof.Machine.execQuarantineRetry p s
  | .laneLockLoss p lane => Sys2Proof.Machine.execLaneLockLoss p lane s
  | .retry p => Sys2Proof.Machine.execRetry p s
  | .disable p => Sys2Proof.Machine.execDisable p s
  | .linkEnable p => Sys2Proof.Machine.execLinkEnable p s
  | .frameForward p f => Sys2Proof.Machine.execFrameForward p f s
  | .copy p f => Sys2Proof.Machine.execCopy p f s
  | .ack p f => Sys2Proof.Machine.execAck p f s
  | .frameResendTimeout idx => Sys2Proof.Machine.execFrameResendTimeout idx s
  | .time p f rxNs rxFrac => Sys2Proof.Machine.execTime p f rxNs rxFrac s
  | .timeFrameSend p txNs txFrac => Sys2Proof.Machine.execTimeFrameSend p txNs txFrac s
  | .linkState p f => Sys2Proof.Machine.execLinkState p f s
  | .unreachable p f => Sys2Proof.Machine.execUnreachable p f s
  -- Safety Net
  | .coreWatchdog core ctx => Sys2Proof.Machine.execCoreWatchdog core ctx s
  | .fencedTransferAbandon core => Sys2Proof.Machine.execFencedTransferAbandon core s
  | .spareTestDone core passed => Sys2Proof.Machine.execSpareTestDone core passed s
  | .recoverResume core => Sys2Proof.Machine.execRecoverResume core s
  | .doubledSwapTimeout core => Sys2Proof.Machine.execDoubledSwapTimeout core s
  | .stackInterfaceLoss stack => Sys2Proof.Machine.execStackInterfaceLoss stack s
  | .crossLinkError => Sys2Proof.Machine.execCrossLinkError s
  | .midwayUe m => Sys2Proof.Machine.execMidwayUe m s
  | .heartbeatSend => Sys2Proof.Machine.execHeartbeatSend s
  | .beat p f => Sys2Proof.Machine.execBeat p f s
  | .heartbeatTimeout nb => Sys2Proof.Machine.execHeartbeatTimeout nb s
  | .suspect p f => Sys2Proof.Machine.execSuspect p f s
  | .probe p f => Sys2Proof.Machine.execProbe p f s
  | .probeReply p f => Sys2Proof.Machine.execProbeReply p f s
  | .probeTimeout subject => Sys2Proof.Machine.execProbeTimeout subject s
  | .lost p f => Sys2Proof.Machine.execLost p f s
  | .suspectEscalateTimeout subject => Sys2Proof.Machine.execSuspectEscalateTimeout subject s
  | .halt p f => Sys2Proof.Machine.execHalt p f s
  | .remap p f => Sys2Proof.Machine.execRemap p f s
  | .restoreComplete => Sys2Proof.Machine.execRestoreComplete s
  | .checkpointFrame p f => Sys2Proof.Machine.execCheckpointFrame p f s
  | .sliceAck p f => Sys2Proof.Machine.execSliceAck p f s
  | .ckptDone p f => Sys2Proof.Machine.execCkptDone p f s
  | .ckptCommit p f => Sys2Proof.Machine.execCkptCommit p f s
  | .restored p f => Sys2Proof.Machine.execRestored p f s
  | .railSample r mv => Sys2Proof.Machine.execRailSample r mv s
  | .tempSample t temp => Sys2Proof.Machine.execTempSample t temp s
  | .retest core => Sys2Proof.Machine.execRetest core s
  | .retestDone core passed => Sys2Proof.Machine.execRetestDone core passed s
  | .mirrorPageProgram => Sys2Proof.Machine.execMirrorPageProgram s
  | .freeze => Sys2Proof.Machine.execFreeze s
  | .thaw => Sys2Proof.Machine.execThaw s
  | .pwrWarnAssert => Sys2Proof.Machine.execPwrWarnAssert s
  -- start-up
  | .vinQualified => Sys2Proof.Machine.execVinQualified s
  | .railRegulated order => Sys2Proof.Machine.execRailRegulated order s
  | .railSequenceFail => Sys2Proof.Machine.execRailSequenceFail s
  | .railRetry => Sys2Proof.Machine.execRailRetry s
  | .vinLoss => Sys2Proof.Machine.execVinLoss s
  | .resetRelease => Sys2Proof.Machine.execResetRelease s
  | .rstNAssert => Sys2Proof.Machine.execRstNAssert s
  | .reboot val => Sys2Proof.Machine.execReboot val s
  | .firmwareVerify => Sys2Proof.Machine.execFirmwareVerify s
  | .playbillSelect errA errB => Sys2Proof.Machine.execPlaybillSelect errA errB s
  | .stackTrainingComplete trained far => Sys2Proof.Machine.execStackTrainingComplete trained far s
  | .selfTestComplete cores stackFails => Sys2Proof.Machine.execSelfTestComplete cores stackFails s
  | .linkBringupComplete => Sys2Proof.Machine.execLinkBringupComplete s
  | .timeWaitTimeout => Sys2Proof.Machine.execTimeWaitTimeout s
  | .flashErase => Sys2Proof.Machine.execFlashErase s
  | .flashProgram => Sys2Proof.Machine.execFlashProgram s
  | .flashRead => Sys2Proof.Machine.execFlashRead s
  | .flashCmdDone => Sys2Proof.Machine.execFlashCmdDone s
  -- module hardware
  | .throttleAdjust mv ma watts1ms watts100ms k => Sys2Proof.Machine.execThrottleAdjust mv ma watts1ms watts100ms k s
  | .setEndpointId eid pecOk => Sys2Proof.Machine.execSetEndpointId eid pecOk s
  | .pldmRequest msg pecOk => Sys2Proof.Machine.execPldmRequest msg pecOk s
  | .requestUpdate component pecOk => Sys2Proof.Machine.execRequestUpdate component pecOk s
  | .verifyComplete => Sys2Proof.Machine.execVerifyComplete s
  | .activateFirmware pecOk => Sys2Proof.Machine.execActivateFirmware pecOk s
  | .cancelUpdate pecOk => Sys2Proof.Machine.execCancelUpdate pecOk s
  | .updateIr die instr => Sys2Proof.Machine.execUpdateIr die instr s
  | .submit => Sys2Proof.Machine.execSubmit s
  | .relock => Sys2Proof.Machine.execRelock s
  | .unlockExpiry => Sys2Proof.Machine.execUnlockExpiry s
  | .pwrWarnNRise => Sys2Proof.Machine.execPwrWarnNRise s
  | .msixMask fn vec => Sys2Proof.Machine.execMsixMask fn vec s
  | .mirrorPageDone => Sys2Proof.Machine.execMirrorPageDone s
  | .streamFetchDone core ctx => Sys2Proof.Machine.execStreamFetchDone core ctx s
  | .slewComplete => Sys2Proof.Machine.execSlewComplete s
  | .componentImageWrite component off data pecOk => Sys2Proof.Machine.execComponentImageWrite component off data pecOk s

end Sys2Proof.Machine
end

