-- ==== Sys2Proof/Safety.lean ====
section
/-! DEFINITION. What counts as a safe step and a safe state, and the terms the statements use: what a command gives,
what it leaves unchanged, and when a slot of a bundle is the next to run. -/

namespace Sys2Proof.Machine

/-- A step that answers a next state. -/
def Steps (s t : State) : Prop := step s = .next t

/-- A command completes in a state and leaves a state of which `P` holds. -/
def Gives (c : Instr) (s : State) (P : State → Prop) : Prop := ∃ t, exec c s = .next t ∧ P t

/-- A command completes in a state and leaves `u`, with the fuses and the queue of commands as they were (they change in
no command). -/
def Leaves (c : Instr) (s u : State) : Prop := exec c s = .next { u with fuse := s.fuse, pending := s.pending }

/-- Every byte memory of the module is in its canonical form. -/
def MemoriesCanonical (s : State) : Prop := s.memWf = true

/-- Every accumulator and its marks are in their canonical form, and the buckets and the counts of the rails' samples are
in rising order. -/
def TablesCanonical (s : State) : Prop :=
  (∀ p ∈ s.cores, Sparse.wf 0 p.2.acc = true ∧ Sparse.wf false p.2.accPoison = true) ∧
    Sparse.rising none s.buckets = true ∧ Sparse.rising none s.railRuns = true ∧ Sparse.rising none s.railOver = true

/-! What a command leaves unchanged. -/

/-- Every byte of every memory of the module reads as before. -/
def BytesKept (s t : State) : Prop :=
  (∀ sp a, t.readMem sp a 1 = s.readMem sp a 1) ∧ ∀ a, t.flashRead a 1 = s.flashRead a 1

/-- Every register but the named ones reads as before. -/
def RegsKept (s t : State) (but : List Nat) : Prop := ∀ k, k ∉ but → t.reg k = s.reg k

/-- Only registers have changed, and only the named ones. -/
def OnlyRegs (s t : State) (ks : List Nat) : Prop := t = { s with regs := t.regs } ∧ RegsKept s t ks

/-- Only core `n` and the named registers have changed. -/
def OnlyCore (s t : State) (n : Nat) (ks : List Nat) : Prop :=
  t = { s with cores := t.cores, regs := t.regs } ∧ (∀ m, m ≠ n → t.core m = s.core m) ∧ RegsKept s t ks

/-- Only queue `q` and the named registers have changed. -/
def OnlyQueue (s t : State) (q : Nat) (ks : List Nat) : Prop :=
  t = { s with queues := t.queues, regs := t.regs } ∧ (∀ r, r ≠ q → t.queue r = s.queue r) ∧ RegsKept s t ks

/-- Only port `p` and the named registers have changed. -/
def OnlyPort (s t : State) (p : Nat) (ks : List Nat) : Prop :=
  t = { s with ports := t.ports, regs := t.regs } ∧ (∀ r, r ≠ p → t.port r = s.port r) ∧ RegsKept s t ks

/-! Slots. -/

/-- The lowest slot still to run of the open bundle of context `x` of core `n` is slot `j`, with word `w` of opcode
`op` whose guard lets it run (R138), no restart of the stream is under way, and nothing waits in the issue queue of the
slot's engine (R139). -/
def SlotWaits (s : State) (n x j op : Nat) (b : OpenBundle) (w : Word64) (rest : List (Nat × Word64)) : Prop :=
  (s.ctx n x).reload = false ∧ (s.ctx n x).cur = some b ∧ b.todo = (j, w) :: rest ∧ slotOp w.toNat = op ∧
    guardPasses w.toNat b.preds = true ∧ (j = 5 → (s.core n).vecq = []) ∧ (j = 6 → (s.core n).rowq = [])

/-- The state in which a slot that runs finds the machine: the slot is taken from the bundle, and for a slot of the
vector or row engine the core has got on (R336). -/
def slotTaken (s : State) (n x j : Nat) (b : OpenBundle) (rest : List (Nat × Word64)) : State :=
  let u := s.modCtx n x fun c => { c with cur := some { b with todo := rest } }
  if j = 5 ∨ j = 6 then u.stirred n else u

/-- A window of samples whose head has its stamp: the tick in which it became the head (R266). -/
def headStamped (now : Nat) : List Sample → List Sample
  | [] => []
  | x :: xs => { x with headSince := x.headSince.or (some now) } :: xs

/-- The slot has left the open bundle of context `x` of core `n`, the context's scalar registers are now `sregs`,
and nothing else of the core's two contexts has changed. -/
def SlotGone (s t : State) (n x : Nat) (b : OpenBundle) (rest : List (Nat × Word64)) (sregs : List (Nat × Word64)) :
    Prop :=
  t.ctx n x = { s.ctx n x with cur := some { b with todo := rest }, sregs := sregs } ∧
    ∀ y, y < 2 → y ≠ x → t.ctx n y = s.ctx n y

/-- Of core `n` nothing has changed but its contexts. -/
def CtxFrame (s t : State) (n : Nat) : Prop :=
  t.core n = { s.core n with ctx0 := (t.core n).ctx0, ctx1 := (t.core n).ctx1 }

/-- Of core `n` nothing has changed but its contexts, its sort unit, the listed vector registers, and the tick in which it last
got on. -/
def SortFrame (s t : State) (n : Nat) (vks : List Nat) : Prop :=
  t.core n = { s.core n with ctx0 := (t.core n).ctx0, ctx1 := (t.core n).ctx1, vregs := (t.core n).vregs
                             sort := (t.core n).sort, progressAt := s.now } ∧
    ∀ k, k ∉ vks → Sparse.get? (t.core n).vregs k = Sparse.get? (s.core n).vregs k

/-- Context `x` of core `n` has become `c`, and nothing else of the module has changed. -/
def CtxBecomes (s t : State) (n x : Nat) (c : SeqCtx) : Prop :=
  t = { s with cores := t.cores } ∧ (∀ m, m ≠ n → t.core m = s.core m) ∧
    t.core n = { s.core n with ctx0 := (t.core n).ctx0, ctx1 := (t.core n).ctx1 } ∧ t.ctx n x = c ∧
    ∀ y, y < 2 → y ≠ x → t.ctx n y = s.ctx n y

/-- Of core `n` nothing has changed but its contexts, the listed vector and mask registers, and the tick in which it
last got on. -/
def LanesFrame (s t : State) (n : Nat) (vks mks : List Nat) : Prop :=
  t.core n = { s.core n with ctx0 := (t.core n).ctx0, ctx1 := (t.core n).ctx1, vregs := (t.core n).vregs,
                             masks := (t.core n).masks, progressAt := s.now } ∧
    (∀ k, k ∉ vks → Sparse.get? (t.core n).vregs k = Sparse.get? (s.core n).vregs k) ∧
    ∀ k, k ∉ mks → Sparse.get? (t.core n).masks k = Sparse.get? (s.core n).masks k

/-- The frame of a slot of the vector engine that writes the listed vector and mask registers, the context's scalar
registers `sregs` and NUM.FLAGS: nothing else changes, and no memory does. -/
def VecFrame (s t : State) (n x : Nat) (b : OpenBundle) (rest : List (Nat × Word64)) (vks mks : List Nat)
    (sregs : List (Nat × Word64)) : Prop :=
  OnlyCore s t n [Reg.numFlags n] ∧ SlotGone s t n x b rest sregs ∧ LanesFrame s t n vks mks

/-- The flags that the active ones of `k` lanes or elements raise together. -/
def raisedFlags (act : Nat → Bool) (k : Nat) (f : Nat → Nat) : Nat :=
  (List.range k).foldl (fun a i => a ||| if act i then f i else 0) 0

/-- NUM.FLAGS of core `n` is sticky: it has gained exactly the named flags (R54). -/
def FlagsGained (s t : State) (n flags : Nat) : Prop :=
  ∀ i, i < 64 → (t.reg (Reg.numFlags n)).testBit i = ((s.reg (Reg.numFlags n)).testBit i || flags.testBit i)

/-- The destination lanes of a slot with word `w`: an active lane holds `val`, an inactive one keeps its value
(R105). -/
def LanesHold (s t : State) (n x w : Nat) (val : Nat → Nat) : Prop :=
  ∀ i, i < 128 → laneOf (t.vecRead n x (vecVd w)) i =
    if s.lane n x w i then val i % 2 ^ 32 else laneOf (s.vecRead n x (vecVd w)) i

/-- The destination elements of a binary64 slot: element j is governed by mask bit 2j (R104, R105). -/
def ElemsHold (s t : State) (n x w : Nat) (val : Nat → Nat) : Prop :=
  ∀ j, j < 64 → elem64 (t.vecRead n x (vecVd w)) j =
    if s.lane n x w (2 * j) then val j % 2 ^ 64 else elem64 (s.vecRead n x (vecVd w)) j

/-- A list of statuses with one more condition, if it is new. -/
def withCond (conds : List Nat) (c : Nat) : List Nat := if conds.contains c then conds else conds ++ [c]

/-- A load has filled the active lanes of VD with `fed` elements, NaN for a marked one (Table 6.4); a marked one in an
active lane raises POISON and puts NUMERIC_POISON among the bundle's conditions (R63, R187); the context's scalar registers
are now `sregs`, and nothing else has changed. -/
def LoadGives (s t : State) (n x : Nat) (b : OpenBundle) (w ty : Nat) (rest : List (Nat × Word64)) (fed : Nat → Fed)
    (sregs : List (Nat × Word64)) : Prop :=
  let fl (i : Nat) := if (fed i).2 then flPoison else 0
  let flags := if ty = 1 then raisedFlags (fun j => s.lane n x w (2 * j)) 64 fl else raisedFlags (s.lane n x w) 128 fl
  (if ty = 1 then ElemsHold s t n x w fun j => (fed j).1 else LanesHold s t n x w fun i => (fed i).1) ∧
    FlagsGained s t n flags ∧ OnlyCore s t n [Reg.numFlags n] ∧ LanesFrame s t n [x * 64 + vecVd w] [] ∧
    t.ctx n x = { s.ctx n x with cur := some { b with todo := rest }, sregs := sregs
                                 conds := if flags = 0 then (s.ctx n x).conds else noted (s.ctx n x).conds 0x20 (recTag x b.off b.tag) } ∧
    ∀ y, y < 2 → y ≠ x → t.ctx n y = s.ctx n y

/-- Of the two contexts of core `n` only the conditions of context `x` have changed, by the status `status` of the
bundle with tag `tag`, if it was `met`. -/
def CondsNoted (s t : State) (n x : Nat) (met : Bool) (status : Nat) (tag : Word32) : Prop :=
  ∀ y, y < 2 → t.ctx n y =
    if met = true ∧ y = x then { s.ctx n y with conds := noted (s.ctx n y).conds status tag } else s.ctx n y

/-- The memory and the cell of it that an address of a space names. -/
def cellOf (sp : Space) (a : Nat) : Nat × Nat :=
  match sp with
  | .near => (0, a)
  | .far p => (1, p * 2 ^ 43 + a)
  | .die d => (2, d * 2 ^ 26 + a)
  | .host => (3, a)
  | .stage c => (4 + c, a)

/-- Every byte of every memory of the module outside some ranges of a space reads as before. -/
def BytesKeptOutside (s t : State) (sp : Space) (ranges : List (Nat × Nat)) : Prop :=
  (∀ sp' a, (∀ r ∈ ranges, ∀ i, i < r.2 → cellOf sp' a ≠ cellOf sp (r.1 + i)) → t.readMem sp' a 1 = s.readMem sp' a 1) ∧
    ∀ a, t.flashRead a 1 = s.flashRead a 1

/-- Rows of bytes stand at their addresses of a space, each that no other of them overlaps. -/
def RowsStand (t : State) (sp : Space) (rows : List (Nat × Bytes)) : Prop :=
  ∀ (i : Nat) (r : Nat × Bytes), rows[i]? = some r →
    (∀ (j : Nat) (r' : Nat × Bytes), rows[j]? = some r' → j ≠ i → rangesHit (r.1, r.2.length) (r'.1, r'.2.length) = false) →
    t.readMem sp r.1 r.2.length = r.2

/-- Transfer `idx` has left flight on core `n`, the others in their order; where none of those is a chained transfer of a far
space, which would now make its next requests (R183), they stand as they were. -/
def XferLeft (s t : State) (n idx : Nat) : Prop :=
  (t.core n).xfers.map (·.idx) = ((s.core n).xfers.map (·.idx)).filter (· ≠ idx) ∧
    ((∀ y ∈ (s.core n).xfers, y.idx = idx ∨ y.space < 4 ∨ y.chain = 0) →
      (t.core n).xfers = (s.core n).xfers.filter (fun y => y.idx ≠ idx) ∧ t.farReqs = s.farReqs ∧ t.farAsks = s.farAsks)

/-- The registers that show near and far requests: MEM.STK OUTSTANDING and PEAK, and FAR.OUTST. -/
def trafficRegs : List Nat := (List.range 32).map Reg.memStk1 ++ (List.range 4).map Reg.farOutst

/-- Every byte of core `n`'s stage buffer outside the given physical ranges reads as before. -/
def StageKeptOutside (s t : State) (n : Nat) (ranges : List (Nat × Nat)) : Prop :=
  ∀ a, (∀ r ∈ ranges, a < r.1 ∨ r.1 + r.2 ≤ a) → t.readMem (.stage n) a 1 = s.readMem (.stage n) a 1

/-- Of core `n` nothing has changed but its contexts, its stage buffer and the marks on it, and the tick in which it last
got on. -/
def StageFrame (s t : State) (n : Nat) : Prop :=
  t.core n = { s.core n with ctx0 := (t.core n).ctx0, ctx1 := (t.core n).ctx1, stage := (t.core n).stage,
                             stagePoison := (t.core n).stagePoison, progressAt := s.now }

/-- A frame of a type for this module has arrived on a data-carrying port and passed the tag, the rate limit, the address checks
and its CRC, which leave `u`; a lost module takes no block and no message (R319, R322, R330, R337). -/
def FrameArrives (s u : State) (p : Nat) (f : Frame) (typ : Nat) : Prop :=
  (s.portState p = 4 ∨ s.portState p = 5) ∧ f.typ.toNat = typ ∧ f.dst.toNat = s.self ∧ s.screen p f = (u, true) ∧
    ¬(s.phase = 0xF ∧ typ ≤ 2) ∧ frameCrc f = true

/-- A frame that passed the checks of every frame, which left `u`, fails the condition of its type: it is dropped and counted in
ADDR_DROPS, and nothing that a frame may change but its port has changed, unless the count takes the port out of service
(R322, R330). -/
def DropsFrame (c : Instr) (s u : State) (p : Nat) : Prop := Gives c s fun t =>
  t.fld (Reg.lnkHostile p) Fld.lnkHostileAddrDrops =
    min (s.fld (Reg.lnkHostile p) Fld.lnkHostileAddrDrops + 1) (2 ^ Fld.lnkHostileAddrDrops.w - 1) ∧
  t.heldFrames = s.heldFrames ∧ t.buckets = s.buckets ∧ t.faults = s.faults ∧ t.cores = s.cores ∧ t.ckpt = s.ckpt ∧
  t.rollback = s.rollback ∧ t.peers = s.peers ∧ t.suspicions = s.suspicions ∧ t.probes = s.probes ∧
  t = { u.addrDrop p with fuse := s.fuse, pending := s.pending }

end Sys2Proof.Machine
end

