-- ==== Sys2Proof/Certificates/Slice0/Obligations.lean ====
section
/-! DEFINITION. The statements for the provers: what each command of the Peleno 96 does and what it leaves unchanged,
from the numbered rules of spec/. -/

open Sys2Proof Sys2Proof.Machine

/-! The VEC slot. A row of these tables names a command, its opcode in Table 5.15 and its function. -/

/-- The operations on binary32 and binary64 lanes (Table 4.1). -/
def Sys2Proof.Claims.floatRows : List ((Nat → Nat → Instr) × Nat × (IFmt → Nat → Nat → Nat → Nat → Nat × Nat)) :=
  [(.add, 0x01, fun F r a b _ => F.add r a b), (.sub, 0x02, fun F r a b _ => F.sub r a b),
   (.mul, 0x03, fun F r a b _ => F.mul r a b), (.fma, 0x04, IFmt.fma),
   (.min, 0x05, fun F _ a b _ => F.minimum a b), (.max, 0x06, fun F _ a b _ => F.maximum a b),
   (.abs, 0x07, fun F _ a _ _ => (F.mag a, 0)), (.neg, 0x08, fun F _ a _ _ => (F.negate a, 0)),
   (.cpysgn, 0x09, fun F _ a b _ => (F.copySign a b, 0)), (.div, 0x0A, fun F r a b _ => F.div r a b),
   (.sqrt, 0x0B, fun F r a _ _ => F.sqrt r a)]

/-- The operations on 32-bit words (Table 4.1). -/
def Sys2Proof.Claims.wordRows : List ((Nat → Nat → Instr) × Nat × (Bool → Nat → Nat → Nat)) :=
  [(.iadd, 0x10, fun _ a b => a + b), (.isub, 0x11, fun _ a b => a + 2 ^ 32 - b), (.imul, 0x12, fun _ a b => a * b),
   (.imin, 0x13, fun sgn a b => if intCompare sgn 3 a b then a else b),
   (.imax, 0x14, fun sgn a b => if intCompare sgn 3 a b then b else a),
   (.and, 0x15, fun _ a b => a &&& b), (.or, 0x16, fun _ a b => a ||| b), (.xor, 0x17, fun _ a b => a ^^^ b)]

/-- The shifts by the lane of VB (Table 4.1); a shift by 32 or more leaves an open value in its lane. -/
def Sys2Proof.Claims.shiftRows : List ((Nat → Nat → Instr) × Nat × (Nat → Nat → Nat)) :=
  [(.shl, 0x18, fun a k => a * 2 ^ k), (.shr, 0x19, fun a k => a / 2 ^ k), (.sra, 0x1A, sra32)]

/-- The fixed functions of R107. -/
def Sys2Proof.Claims.fixedRows : List ((Nat → Nat → Instr) × Nat × (Nat → Nat × Nat)) :=
  [(.exp2, 0x0C, exp2Fixed), (.log2, 0x0D, log2Fixed), (.rcp, 0x0E, rcpFixed), (.rsq, 0x0F, rsqFixed)]

/-- The operations on masks (Table 4.1). -/
def Sys2Proof.Claims.maskRows : List ((Nat → Nat → Instr) × Nat × (Bool → Bool → Bool)) :=
  [(.mand, 0x20, fun a b => a && b), (.mor, 0x21, fun a b => a || b), (.mxor, 0x22, fun a b => a != b),
   (.mandn, 0x23, fun a b => a && !b), (.mnot, 0x24, fun a _ => !a), (.mset, 0x25, fun _ _ => true)]

/-- The reductions on binary32 and binary64 (Table 4.2): their combination, the value of an inactive lane, and whether
the lanes enter by magnitude. -/
def Sys2Proof.Claims.reduceRows :
    List ((Nat → Nat → Instr) × Nat × (IFmt → Nat → Nat → Nat → Nat × Nat) × (IFmt → Nat) × Bool) :=
  [(.rsum, 0x38, IFmt.add, fun F => F.zero true, false),
   (.rmax, 0x39, fun F _ a b => ((F.maximum a b).1, 0), fun F => F.inf true, false),
   (.rmin, 0x3A, fun F _ a b => ((F.minimum a b).1, 0), fun F => F.inf false, false),
   (.ramax, 0x3B, fun F _ a b => ((F.maximum a b).1, 0), fun F => F.zero false, true)]

open Sys2Proof.Claims

/-- IADD, ISUB, IMUL, IMIN, IMAX, AND, OR and XOR write the active lanes of VD with the low 32 bits of the function of the
lanes of VA and VB (IMIN and IMAX as TY says, signed for int32), raise no flag, and change nothing else. SHL, SHR and SRA
shift each active lane of VA by the lane of VB. Where VB's lane is 32 or more, the spec states no result and the lane takes
the open value of log 17, whatever it is; every other lane and the frame are as for the other shifts. -/
def Obligations.WordOperationsWriteActiveLanes : Prop :=
  (∀ r ∈ wordRows, ∀ (s : State) (n x : Nat) (b : OpenBundle) (w : Word64) (rest : List (Nat × Word64)),
     n < 208 → x < 2 → SlotWaits s n x 5 r.2.1 b w rest →
     Gives (r.1 n x) s fun t =>
       LanesHold s t n x w.toNat (fun i => r.2.2 (vecTy w.toNat = 2) (laneOf (s.vecRead n x (vecVa w.toNat)) i)
         (laneOf (s.vecRead n x (vecVb w.toNat)) i)) ∧
       RegsKept s t [] ∧ VecFrame s t n x b rest [x * 64 + vecVd w.toNat] [] (s.ctx n x).sregs) ∧
  ∀ r ∈ shiftRows, ∀ (s : State) (n x : Nat) (b : OpenBundle) (w : Word64) (rest : List (Nat × Word64)),
    n < 208 → x < 2 → SlotWaits s n x 5 r.2.1 b w rest →
    let a (i : Nat) := laneOf (s.vecRead n x (vecVa w.toNat)) i
    let k (i : Nat) := laneOf (s.vecRead n x (vecVb w.toNat)) i
    Gives (r.1 n x) s fun t =>
      LanesHold s t n x w.toNat (fun i => if k i < 32 then r.2.2 (a i) (k i)
        else (Config.wideShift r.2.1 (BitVec.ofNat 32 (a i)) (BitVec.ofNat 32 (k i))).toNat) ∧
      RegsKept s t [] ∧ VecFrame s t n x b rest [x * 64 + vecVd w.toNat] [] (s.ctx n x).sregs

/-- ADD, SUB, MUL, FMA, MIN, MAX, ABS, NEG, CPYSGN, DIV and SQRT, when their slot waits, write each active lane (each active
element in binary64) of VD with the function of the lanes of VA, VB and VC, keep the inactive ones (R105), add the flags
that active lanes raise to NUM.FLAGS, take the slot from its bundle, and change nothing else. EXP2, LOG2, RCP and RSQ write
the active lanes of VD with the fixed function of the lane of VA and add its flags to NUM.FLAGS, and change nothing else.
Their decoding admits binary32 lanes only (Table 4.1); which of the codes within 1 ulp a fixed function gives is open (log
16), and the statement holds whichever it is. -/
def Obligations.FloatOperationsWriteActiveLanes : Prop :=
  (∀ r ∈ floatRows, ∀ (s : State) (n x : Nat) (b : OpenBundle) (w : Word64) (rest : List (Nat × Word64)),
     n < 208 → x < 2 → SlotWaits s n x 5 r.2.1 b w rest →
     let v (p : Nat) := s.vecRead n x p
     let f64 (j : Nat) := r.2.2 F64 (s.rdir n) (elem64 (v (vecVa w.toNat)) j) (elem64 (v (vecVb w.toNat)) j)
       (elem64 (v (vecVc w.toNat)) j)
     let f32 (i : Nat) := r.2.2 F32 (s.rdir n) (laneOf (v (vecVa w.toNat)) i) (laneOf (v (vecVb w.toNat)) i)
       (laneOf (v (vecVc w.toNat)) i)
     Gives (r.1 n x) s fun t =>
       (if vecTy w.toNat = 1 then
         ElemsHold s t n x w.toNat (fun j => (f64 j).1) ∧
           FlagsGained s t n (raisedFlags (fun j => s.lane n x w.toNat (2 * j)) 64 fun j => (f64 j).2)
       else
         LanesHold s t n x w.toNat (fun i => (f32 i).1) ∧
           FlagsGained s t n (raisedFlags (s.lane n x w.toNat) 128 fun i => (f32 i).2)) ∧
       VecFrame s t n x b rest [x * 64 + vecVd w.toNat] [] (s.ctx n x).sregs) ∧
  ∀ r ∈ fixedRows, ∀ (s : State) (n x : Nat) (b : OpenBundle) (w : Word64) (rest : List (Nat × Word64)),
    n < 208 → x < 2 → vecTy w.toNat = 0 → SlotWaits s n x 5 r.2.1 b w rest →
    Gives (r.1 n x) s fun t =>
      LanesHold s t n x w.toNat (fun i => (r.2.2 (laneOf (s.vecRead n x (vecVa w.toNat)) i)).1) ∧
      FlagsGained s t n (raisedFlags (s.lane n x w.toNat) 128 fun i =>
        (r.2.2 (laneOf (s.vecRead n x (vecVa w.toNat)) i)).2) ∧
      VecFrame s t n x b rest [x * 64 + vecVd w.toNat] [] (s.ctx n x).sregs

/-- MAND, MOR, MXOR, MANDN, MNOT and MSET write the bits of the destination mask that belong to active lanes and keep the
others; no vector register, flag or memory changes. RSUM, RMAX, RMIN and RAMAX put the value of the tree of R113 over their
128 lanes (64 elements in binary64), an inactive lane entering as the operation's own identity, into scalar register SD and
its flags into NUM.FLAGS; no vector or mask register and no memory changes, and s0 ignores the write. RISUM puts the exact
sum of the active int32 lanes there, as a signed 64-bit number, and MPOPC the number of active lanes (Table 4.2); neither
raises a flag. -/
def Obligations.MasksAndReductionsWriteTheirDestination : Prop :=
  (∀ r ∈ maskRows, ∀ (s : State) (n x : Nat) (b : OpenBundle) (w : Word64) (rest : List (Nat × Word64)),
     n < 208 → x < 2 → SlotWaits s n x 5 r.2.1 b w rest →
     let m (p : Nat) := (s.core n).mask x (bits w.toNat p 3)
     Gives (r.1 n x) s fun t =>
       (∀ i, i < 128 → ((t.core n).mask x (bits w.toNat 41 3)).getLsbD i =
         if s.lane n x w.toNat i then r.2.2 ((m 35).getLsbD i) ((m 29).getLsbD i) else (m 41).getLsbD i) ∧
       RegsKept s t [] ∧ VecFrame s t n x b rest [] [x * 8 + bits w.toNat 41 3] (s.ctx n x).sregs) ∧
  (∀ r ∈ reduceRows, ∀ (s : State) (n x : Nat) (b : OpenBundle) (w : Word64) (rest : List (Nat × Word64)),
    n < 208 → x < 2 → SlotWaits s n x 5 r.2.1 b w rest →
    let a := s.vecRead n x (vecVa w.toNat)
    let res :=
      if vecTy w.toNat = 1 then
        tree (r.2.2.1 F64 (s.rdir n)) 6 ((List.range 64).map fun j =>
          if s.lane n x w.toNat (2 * j) then (elem64 a j, true) else (r.2.2.2.1 F64, false))
      else
        tree (r.2.2.1 F32 (s.rdir n)) 7 ((List.range 128).map fun i =>
          if s.lane n x w.toNat i then ((if r.2.2.2.2 then F32.mag (laneOf a i) else laneOf a i), true)
          else (r.2.2.2.1 F32, false))
    Gives (r.1 n x) s fun t =>
      FlagsGained s t n res.2 ∧
        VecFrame s t n x b rest [] [] (sregSet (s.ctx n x).sregs (bits w.toNat 41 5) res.1)) ∧
  ∀ (s : State) (n x : Nat) (b : OpenBundle) (w : Word64) (rest : List (Nat × Word64)), n < 208 → x < 2 →
    (SlotWaits s n x 5 0x3C b w rest → Gives (.risum n x) s fun t => RegsKept s t [] ∧
      VecFrame s t n x b rest [] [] (sregSet (s.ctx n x).sregs (bits w.toNat 41 5)
        (ofSigned 64 ((((List.range 128).filter (s.lane n x w.toNat)).map fun i =>
          toSigned 32 (laneOf (s.vecRead n x (vecVa w.toNat)) i)).foldl (· + ·) 0)))) ∧
    (SlotWaits s n x 5 0x3D b w rest → Gives (.mpopc n x) s fun t => RegsKept s t [] ∧
      VecFrame s t n x b rest [] [] (sregSet (s.ctx n x).sregs (bits w.toNat 41 5)
        ((List.range 128).filter (s.lane n x w.toNat)).length))

/-- BCAST fills the active lanes of VD with the low word of a scalar register, IOTA with the lane's number plus it,
COMPRESS packs the active lanes of VA to the lowest lanes of VD and zeroes the rest, and EXPAND gives the active lanes of VD
the lowest lanes of VA in order (R112, Table 4.1); nothing else changes. -/
def Obligations.LaneMovesWriteDestination : Prop :=
  ∀ (s : State) (n x : Nat) (b : OpenBundle) (w : Word64) (rest : List (Nat × Word64)), n < 208 → x < 2 →
    let a := s.vecRead n x (vecVa w.toNat)
    let act := (List.range 128).filter (s.lane n x w.toNat)
    let frame (t : State) := RegsKept s t [] ∧ VecFrame s t n x b rest [x * 64 + vecVd w.toNat] [] (s.ctx n x).sregs
    (SlotWaits s n x 5 0x28 b w rest → Gives (.bcast n x) s fun t =>
      LanesHold s t n x w.toNat (fun _ => b.sreg (bits w.toNat 18 5)) ∧ frame t) ∧
    (SlotWaits s n x 5 0x29 b w rest → Gives (.iota n x) s fun t =>
      LanesHold s t n x w.toNat (fun i => i + b.sreg (bits w.toNat 18 5)) ∧ frame t) ∧
    (SlotWaits s n x 5 0x2A b w rest → Gives (.compress n x) s fun t =>
      (∀ i, i < 128 → laneOf (t.vecRead n x (vecVd w.toNat)) i = ((act[i]?).map (laneOf a)).getD 0) ∧ frame t) ∧
    (SlotWaits s n x 5 0x2B b w rest → Gives (.expand n x) s fun t =>
      LanesHold s t n x w.toNat (fun i => laneOf a (act.filter fun l => decide (l < i)).length) ∧ frame t)

/-! The CTRL slot. -/

/-- The scalar operations SD := SA op SB on 64-bit words (Table 5.4). -/
def Sys2Proof.Claims.scalarRows : List ((Nat → Nat → Instr) × Nat × (Nat → Nat → Nat)) :=
  [(.sadd, 0x01, fun a b => a + b), (.ssub, 0x02, fun a b => a + 2 ^ 64 - b), (.smul, 0x03, fun a b => a * b),
   (.sand, 0x04, fun a b => a &&& b), (.sor, 0x05, fun a b => a ||| b), (.sxor, 0x06, fun a b => a ^^^ b),
   (.sshl, 0x07, fun a b => a * 2 ^ (b % 64)), (.sshr, 0x08, fun a b => a / 2 ^ (b % 64)), (.ssra, 0x09, sra64),
   (.smin, 0x0A, fun a b => if toSigned 64 a ≤ toSigned 64 b then a else b),
   (.smax, 0x0B, fun a b => if toSigned 64 a ≤ toSigned 64 b then b else a)]

/-- The operations on predicates (Table 5.4). -/
def Sys2Proof.Claims.predRows : List ((Nat → Nat → Instr) × Nat × (Bool → Bool → Bool)) :=
  [(.pand, 0x18, fun a b => a && b), (.por, 0x19, fun a b => a || b), (.pxor, 0x1A, fun a b => a != b),
   (.pnot, 0x1B, fun a _ => !a)]

/-- SADD, SSUB, SMUL, SAND, SOR, SXOR, SSHL, SSHR, SSRA, SMIN and SMAX write SD with the low 64 bits of the function of SA and
SB as they stood before the bundle (R139); s0 ignores the write (R140); nothing but the context changes. SLI writes SD with
IMM32 sign-extended, SLIH its upper half with IMM32 while the lower half stays, SADDI the sum of SA and the sign-extended
IMM32 (R140, Table 5.4), SLC the iteration index of the loop at DEPTH or 0, and SSTEP makes SA[31:0] the working step
number (R147); nothing but the context changes. SCMP and SFCMP set predicate PD to the comparison under COND, signed or of
binary32, and PAND, POR, PXOR and PNOT set it to the function of PA and PB as they stood before the bundle (R139, R141);
the other predicates stay, and nothing but the context changes. -/
def Obligations.ScalarsAndPredicatesAreSetAlone : Prop :=
  (∀ r ∈ scalarRows, ∀ (s : State) (n x : Nat) (b : OpenBundle) (w : Word64) (rest : List (Nat × Word64)),
     n < 208 → x < 2 → SlotWaits s n x 0 r.2.1 b w rest →
     Gives (r.1 n x) s fun t =>
       CtxBecomes s t n x { s.ctx n x with
         cur := some { b with todo := rest }
         sregs := sregSet (s.ctx n x).sregs (bits w.toNat 48 5)
           (r.2.2 (b.sreg (bits w.toNat 43 5)) (b.sreg (bits w.toNat 38 5)) % 2 ^ 64) }) ∧
  (∀ (s : State) (n x : Nat) (b : OpenBundle) (w : Word64) (rest : List (Nat × Word64)), n < 208 → x < 2 →
     let c := { s.ctx n x with cur := some { b with todo := rest } }
     let sd := bits w.toNat 48 5
     let imm := ofSigned 64 (toSigned 32 (bits w.toNat 0 32))
     (SlotWaits s n x 0 0x10 b w rest → Gives (.sli n x) s fun t =>
       CtxBecomes s t n x { c with sregs := sregSet c.sregs sd imm }) ∧
     (SlotWaits s n x 0 0x11 b w rest → Gives (.slih n x) s fun t =>
       CtxBecomes s t n x { c with
         sregs := sregSet c.sregs sd (b.sreg sd % 2 ^ 32 + bits w.toNat 0 32 * 2 ^ 32) }) ∧
     (SlotWaits s n x 0 0x12 b w rest → Gives (.saddi n x) s fun t =>
       CtxBecomes s t n x { c with sregs := sregSet c.sregs sd ((b.sreg (bits w.toNat 43 5) + imm) % 2 ^ 64) }) ∧
     (SlotWaits s n x 0 0x26 b w rest → Gives (.slc n x) s fun t =>
       CtxBecomes s t n x { c with
         sregs := sregSet c.sregs sd (((c.loops[bits w.toNat 46 2]?).map (·.index)).getD 0) }) ∧
     (SlotWaits s n x 0 0x29 b w rest → Gives (.sstep n x) s fun t =>
       CtxBecomes s t n x { c with step := bits (b.sreg (bits w.toNat 43 5)) 0 32 })) ∧
  ∀ (s : State) (n x : Nat) (b : OpenBundle) (w : Word64) (rest : List (Nat × Word64)), n < 208 → x < 2 →
    let sets (c : Instr) (v : Bool) : Prop := Gives c s fun t =>
      (t.ctx n x).preds.getLsbD (bits w.toNat 50 3) = v ∧
      (∀ p, p < 8 → p ≠ bits w.toNat 50 3 → (t.ctx n x).preds.getLsbD p = (s.ctx n x).preds.getLsbD p) ∧
      CtxBecomes s t n x { s.ctx n x with cur := some { b with todo := rest }, preds := (t.ctx n x).preds }
    (SlotWaits s n x 0 0x14 b w rest → sets (.scmp n x) (condHolds (bits w.toNat 47 3)
      (toSigned 64 (b.sreg (bits w.toNat 42 5))) (toSigned 64 (b.sreg (bits w.toNat 37 5))))) ∧
    (SlotWaits s n x 0 0x15 b w rest → sets (.sfcmp n x) (fcondHolds (bits w.toNat 47 3)
      (b.sreg (bits w.toNat 42 5) % 2 ^ 32) (b.sreg (bits w.toNat 37 5) % 2 ^ 32))) ∧
    ∀ r ∈ predRows, SlotWaits s n x 0 r.2.1 b w rest →
      sets (r.1 n x) (r.2.2 (b.preds.getLsbD (bits w.toNat 47 3)) (b.preds.getLsbD (bits w.toNat 44 3)))

/-- BR, and BRS when SA compares with 0 as COND asks, make the bundle's retirement go to its own first word plus OFF, when
that is the first word of a bundle of the same innermost loop body; BRS that is not taken changes nothing. LOOP makes it
enter the body from the next bundle to the one at OFF with SA[31:0] iterations, unless R144 forbids the body, and BREAKIF
leave the innermost loop (R142, R144, R145). Nothing but the context changes. -/
def Obligations.ControlFlowDirectsRetirement : Prop :=
  ∀ (s : State) (n x : Nat) (b : OpenBundle) (w : Word64) (rest : List (Nat × Word64)), n < 208 → x < 2 →
    let c := { s.ctx n x with cur := some { b with todo := rest } }
    let goes (i : Instr) (e : CtlEffect) : Prop := Gives i s fun t =>
      CtxBecomes s t n x { c with cur := some { b with todo := rest, ctl := e } }
    let target := (b.word : Int) + toSigned 24 (bits w.toNat 0 24)
    let ok := 0 ≤ target ∧ s.targetOk c target.toNat = true
    let taken := condHolds (bits w.toNat 45 3) (toSigned 64 (b.sreg (bits w.toNat 48 5))) 0
    let last := b.word + bits w.toNat 0 24
    let bodyOk := c.loops.length < 4 ∧ b.word + b.length ≤ last ∧
      ((s.bundleStarts c c.words 0).any fun p => p.1 = last) = true ∧
      last + hdrLength (s.streamWord c last) ≤ c.words ∧ ∀ l ∈ c.loops.head?, last ≤ l.last
    (SlotWaits s n x 0 0x20 b w rest → ok → goes (.br n x) (.jump target.toNat)) ∧
    (SlotWaits s n x 0 0x21 b w rest → taken = true → ok → goes (.brs n x) (.jump target.toNat)) ∧
    (SlotWaits s n x 0 0x21 b w rest → taken = false → Gives (.brs n x) s fun t => CtxBecomes s t n x c) ∧
    (SlotWaits s n x 0 0x24 b w rest → bodyOk →
      goes (.loop n x) (.enter (bits (b.sreg (bits w.toNat 48 5)) 0 32) (b.word + b.length) last)) ∧
    (SlotWaits s n x 0 0x25 b w rest → c.loops ≠ [] → goes (.breakif n x) .leave)

/-- ACD with a free or complete descriptor, USES and ENTRIES from 1 and a region inside the accumulator declares it: ACD0
holds BASE, ENTRIES and USES, ACD1 the tag with no use counted and COMPLETE clear (R146). CALLLIB of a function in the
library's table suspends the stream until LIBRARY_RETURN, which puts the function's results into s1 to s3 and lets the
stream go on (R163). Nothing but those two registers and the context changes. -/
def Obligations.DescriptorsAndLibraryCalls : Prop :=
  ∀ (s : State) (n x : Nat) (b : OpenBundle) (w : Word64) (rest : List (Nat × Word64)), n < 208 → x < 2 →
    let c := { s.ctx n x with cur := some { b with todo := rest } }
    let k := bits w.toNat 47 6
    let a := b.sreg (bits w.toNat 42 5)
    let u := b.sreg (bits w.toNat 37 5)
    (SlotWaits s n x 0 0x28 b w rest → (s.core n).acdHeld.contains k = false →
      (bits (s.reg (Reg.mxAcd0 n k)) 48 16 = 0 ∨ bit (s.reg (Reg.mxAcd1 n k)) 16 = true) →
      bits u 0 16 ≠ 0 → bits a 20 20 ≠ 0 → bits a 0 19 + bits a 20 20 ≤ 524288 → Gives (.acd n x) s fun t =>
        bits (t.reg (Reg.mxAcd0 n k)) 0 19 = bits a 0 19 ∧ bits (t.reg (Reg.mxAcd0 n k)) 20 20 = bits a 20 20 ∧
        bits (t.reg (Reg.mxAcd0 n k)) 48 16 = bits u 0 16 ∧ t.reg (Reg.mxAcd1 n k) = bits u 16 32 * 2 ^ 32 ∧
        OnlyCore s t n [Reg.mxAcd0 n k, Reg.mxAcd1 n k] ∧ CtxFrame s t n ∧ SlotGone s t n x b rest (s.ctx n x).sregs) ∧
    (∀ z, SlotWaits s n x 0 0x30 b w rest → s.libContext (bits w.toNat 0 16) = some z → Gives (.calllib n x) s fun t =>
      CtxBecomes s t n x { c with
        lib := some { fn := bits w.toNat 0 16, arg := BitVec.ofNat 64 (b.sreg (bits w.toNat 48 5)), context := z } }) ∧
    ∀ s1 s2 s3 : Word64, (s.ctx n x).lib.isSome = true → Gives (.libraryReturn n x s1 s2 s3) s fun t =>
      CtxBecomes s t n x { s.ctx n x with
        lib := none
        sregs := sregSet (sregSet (sregSet (s.ctx n x).sregs 1 s1.toNat) 2 s2.toNat) 3 s3.toNat }

/-! The VEC slot's memory operations and the sort unit. -/

/-- LDA, LD, LDX and GATHER, when their slot waits, no earlier writer of what they read is still at work, and every active
lane's access lies inside the context's region, fill the active lanes of VD: with the accumulator entries ENTRY + SO + i,
with the consecutive elements of FMT at the address of the scalar, with the 32-bit elements at it that belong to the active
lanes in order (the pointer advancing by 4 for each), or with the elements at base + index × size (R108, R112, R155).
Nothing else changes. -/
def Obligations.LoadsFillActiveLanes : Prop :=
  ∀ (s : State) (n x : Nat) (b : OpenBundle) (w : Word64) (rest : List (Nat × Word64)), n < 208 → x < 2 →
    let v := w.toNat
    let f := vecFmt v
    let addr := vecAddr b v
    let packed := s.packedAccs n x b v
    let index := s.indexAccs n x b v
    let loads (i : Instr) (ty : Nat) (fed : Nat → Fed) (sregs : List (Nat × Word64)) : Prop :=
      Gives i s fun t => LoadGives s t n x b v ty rest fed sregs
    (SlotWaits s n x 5 0x2C b w rest → s.accReady n x b v = true → vecEntry b v ≤ 524160 →
      (∀ i, i < 128 → s.lane n x v i = true → vecEntry b v + i < (s.accRegion n x).2) →
      loads (.lda n x false) 0 (fun i =>
        let p := (s.accRegion n x).1 + vecEntry b v + i
        ((Sparse.get 0 (s.core n).acc p).toNat, Sparse.get false (s.core n).accPoison p)) (s.ctx n x).sregs) ∧
    (SlotWaits s n x 5 0x30 b w rest → s.readReady n x (s.ldAccs n x b v) = true →
      s.outside n x (s.ldAccs n x b v) = none →
      loads (.ld n x false) (vecTy v) (fun j =>
        if fmtG f = 0 then s.plainAt n x f (vecTy v) (addr + j * fmtBits f / 8) (j % 2)
        else s.blockAt n x f (vecTy v) addr j) (s.ctx n x).sregs) ∧
    (SlotWaits s n x 5 0x32 b w rest → s.readReady n x packed = true → s.outside n x packed = none →
      loads (.ldx n x false) 0 (fun i => ((packed.find? fun a => a.1 = i).map fun a => s.plainAt n x 0x60 0 a.2.1 0).getD
          (0, false))
        (if packed = [] then (s.ctx n x).sregs
          else sregSet (s.ctx n x).sregs (bits v 30 5) ((addr + 4 * packed.length) % 2 ^ 64))) ∧
    (SlotWaits s n x 5 0x34 b w rest → s.readReady n x index = true → s.outside n x index = none →
      loads (.gather n x false) 0 (fun i =>
        ((index.find? fun a => a.1 = i).map fun a => s.plainAt n x f (vecTy v) a.2.1 0).getD (0, false))
        (s.ctx n x).sregs)

/-- STA writes each active lane of VD to accumulator entry ENTRY + SO + i of the context's region, clears the mark of each
entry it writes, and leaves every other entry and everything else as it was (R108, R155, R188). STC stores the active lanes
of VD one after another as 32-bit elements from the address of the scalar and advances the pointer by 4 for each; every
stage byte outside those elements, every register and every other memory stays (R112). -/
def Obligations.StaAndStcWriteActiveLanes : Prop :=
  (∀ (s : State) (n x : Nat) (b : OpenBundle) (w : Word64) (rest : List (Nat × Word64)), n < 208 → x < 2 →
     let v := w.toNat
     let p (i : Nat) := (s.accRegion n x).1 + vecEntry b v + i
     SlotWaits s n x 5 0x2D b w rest → s.accReady n x b v = true → vecEntry b v ≤ 524160 →
     (∀ i, i < 128 → s.lane n x v i = true → vecEntry b v + i < (s.accRegion n x).2) →
     Sparse.wf 0 (s.core n).acc = true → Sparse.wf false (s.core n).accPoison = true →
     Gives (.sta n x) s fun t =>
       (∀ i, i < 128 → s.lane n x v i = true →
         (Sparse.get 0 (t.core n).acc (p i)).toNat = laneOf (s.vecRead n x (vecVd v)) i ∧
           Sparse.get false (t.core n).accPoison (p i) = false) ∧
       (∀ e, (∀ i, i < 128 → s.lane n x v i = true → e ≠ p i) →
         Sparse.get 0 (t.core n).acc e = Sparse.get 0 (s.core n).acc e ∧
           Sparse.get false (t.core n).accPoison e = Sparse.get false (s.core n).accPoison e) ∧
       OnlyCore s t n [] ∧ SlotGone s t n x b rest (s.ctx n x).sregs ∧
       t.core n = { s.core n with ctx0 := (t.core n).ctx0, ctx1 := (t.core n).ctx1, acc := (t.core n).acc,
                                  accPoison := (t.core n).accPoison, progressAt := s.now }) ∧
  ∀ (s : State) (n x : Nat) (b : OpenBundle) (w : Word64) (rest : List (Nat × Word64)), n < 208 → x < 2 →
    let v := w.toNat
    let accs := s.packedAccs n x b v
    let at0 := (s.stageRegion n x).1 + vecAddr b v
    MemoriesCanonical s → SlotWaits s n x 5 0x33 b w rest → s.writeReady n x accs = true → s.outside n x accs = none →
    Gives (.stc n x) s fun t =>
      (∀ j i, (s.activeLanes n x v)[j]? = some i →
        t.readNum (.stage n) (at0 + 4 * j) 4 = laneOf (s.vecRead n x (vecVd v)) i) ∧
      StageKeptOutside s t n (s.physical n x accs) ∧ StageFrame s t n ∧ OnlyCore s t n [] ∧
      SlotGone s t n x b rest (if accs = [] then (s.ctx n x).sregs
        else sregSet (s.ctx n x).sregs (bits v 30 5) ((vecAddr b v + 4 * accs.length) % 2 ^ 64))

/-- SCATTER stores each active lane of VD, rounded to nearest even where FMT is a short format of binary32 lanes, at base +
index × size; where several lanes name one address the highest-numbered stands (R108). ST of a plain format stores each active
element of VD, converted as RND asks, at its place. In both, and in ST of a block-scaled format, every stage byte outside the
accesses stays, as does every register but NUM.FLAGS, and near memory outside the statistics slot that ST merges into. That
SCATTER rounds to nearest even is the model's reading (log 15). -/
def Obligations.StoresWriteActiveElements : Prop :=
  ∀ (s : State) (n x : Nat) (b : OpenBundle) (w : Word64) (rest : List (Nat × Word64)), n < 208 → x < 2 →
    let v := w.toNat
    let f := vecFmt v
    let base := (s.stageRegion n x).1
    let reg := s.vecRead n x (vecVd v)
    let index := s.indexAccs n x b v
    let accs := s.stAccs n x b v
    let stat := (s.layout? (s.ctx n x).act).map fun l => l.statsBase + 16 * bits (b.sreg (bits v 15 5)) 32 12
    MemoriesCanonical s →
    (SlotWaits s n x 5 0x35 b w rest → s.writeReady n x index = true → s.outside n x index = none → 8 ≤ fmtBits f →
      Gives (.scatter n x) s fun t =>
        (∀ a ∈ index, (∀ a' ∈ index, a'.2.1 = a.2.1 → a'.1 ≤ a.1) →
          t.readNum (.stage n) (base + a.2.1) (fmtBits f / 8) =
            (if 2 ≤ vecTy v then laneOf reg a.1 else (toShort f .rne 0 0xA0 (laneOf reg a.1)).1) %
              256 ^ (fmtBits f / 8)) ∧
        StageKeptOutside s t n (s.physical n x index) ∧ StageFrame s t n ∧ OnlyCore s t n [Reg.numFlags n] ∧
        SlotGone s t n x b rest (s.ctx n x).sregs) ∧
    (SlotWaits s n x 5 0x31 b w rest → s.writeReady n x accs = true → s.outside n x accs = none →
      Gives (.st n x) s fun t =>
        (fmtG f = 0 → 8 ≤ fmtBits f → ∀ j, j < vecCount v → s.lane n x v (lanesPer v * j) = true →
          t.readNum (.stage n) (base + vecAddr b v + j * fmtBits f / 8) (fmtBits f / 8) =
            (if fmtType f = 7 then elem64 reg j else if 2 ≤ vecTy v then laneOf reg j
              else (toShort f (s.stMode n x b v) (stIndex b v j) 0xA0 (stInput v reg j)).1) % 256 ^ (fmtBits f / 8)) ∧
        StageKeptOutside s t n (s.physical n x accs) ∧ StageFrame s t n ∧
        t = { s with cores := t.cores, regs := t.regs, near := t.near, nearPoison := t.nearPoison } ∧
        (∀ m, m ≠ n → t.core m = s.core m) ∧ RegsKept s t [Reg.numFlags n] ∧
        (∀ a, (∀ e, stat = some e → a < e ∨ e + 16 ≤ a) → t.readMem .near a 1 = s.readMem .near a 1))

/-- CMP writes the bits of the destination mask that belong to active lanes with the comparison of VA and VB under COND, in
binary32, in binary64 (bit 2j for element j; R104) or on integers, adds the flags of the comparisons made to NUM.FLAGS, and
changes nothing else. CVT writes the active lanes of VD with VA's values converted under RDIR and adds their flags; with one
binary64 side, element j stands beside lane 2j (log 14); a conversion whose result the spec does not state takes the open
value of log 18, whatever it is. -/
def Obligations.CompareAndConvertWriteActiveLanes : Prop :=
  ∀ (s : State) (n x : Nat) (b : OpenBundle) (w : Word64) (rest : List (Nat × Word64)), n < 208 → x < 2 →
    let v := w.toNat
    let a := s.vecRead n x (vecVa v)
    let c := s.vecRead n x (vecVb v)
    let cond := bits v 20 3
    let cmp (i : Nat) : Bool × Nat :=
      if vecTy v = 0 then F32.compare cond (laneOf a i) (laneOf c i)
      else if vecTy v = 1 then F64.compare cond (elem64 a (i / 2)) (elem64 c (i / 2))
      else (intCompare (vecTy v = 2) cond (laneOf a i) (laneOf c i), 0)
    let live (i : Nat) : Bool := s.lane n x v i && (vecTy v ≠ 1 || i % 2 = 0)
    let src := bits v 21 2
    let conv (i : Nat) : Nat × Nat :=
      convertLane (s.rdir n) src (vecTy v) (if src = 1 then elem64 a (i / 2) else laneOf a i)
    (SlotWaits s n x 5 0x1C b w rest → Gives (.cmp n x) s fun t =>
      (∀ i, i < 128 → ((t.core n).mask x (bits v 41 3)).getLsbD i =
        if live i then (cmp i).1 else ((s.core n).mask x (bits v 41 3)).getLsbD i) ∧
      FlagsGained s t n (raisedFlags live 128 fun i => (cmp i).2) ∧
      VecFrame s t n x b rest [] [x * 8 + bits v 41 3] (s.ctx n x).sregs) ∧
    (SlotWaits s n x 5 0x1B b w rest → Gives (.cvt n x) s fun t =>
      (if vecTy v = 1 then
        ElemsHold s t n x v (fun j => (conv (2 * j)).1) ∧
          FlagsGained s t n (raisedFlags (fun j => s.lane n x v (2 * j)) 64 fun j => (conv (2 * j)).2)
      else
        (∀ i, i < 128 → laneOf (t.vecRead n x (vecVd v)) i =
          if s.lane n x v i = true ∧ (src = 1 → i % 2 = 0) then (conv i).1 % 2 ^ 32
          else laneOf (s.vecRead n x (vecVd v)) i) ∧
        FlagsGained s t n (raisedFlags (fun i => s.lane n x v i && (src ≠ 1 || i % 2 = 0)) 128 fun i => (conv i).2)) ∧
      VecFrame s t n x b rest [x * 64 + vecVd v] [] (s.ctx n x).sregs)

/-- SORT.LOAD enters the active lanes' keys, with the lanes of VB as their indices unless GEN, at the next 128 positions of
the load buffer; where it has no 128 positions left, its content is open (log 23) and nothing else changes. SORT.RUN and
SORT.MERGE, while no operation runs, take the load buffer as the running operation's block, a generated index being the pair's
place modulo 2^20, and leave the buffer empty; SORT_DONE makes the first 4,096 pairs of the sorted block, merged with the
retained list for a MERGE, the retained list; SORT.OUT, while no operation runs, puts the next 128 retained pairs into the
active lanes of the two registers that it names, and keeps their inactive lanes; a lane past the last pair takes an open value
(log 23) (R114 to R116). Each completes. Beside the slot that the bundle loses, nothing changes but the sort unit and those two
registers: no other vector or mask register, memory, accumulator, register or core. That a RUN's generated indices begin with
its own block is the model's reading (log 24). -/
def Obligations.SortUnitLoadsSortsAndReturns : Prop :=
  ∀ (s : State) (n x : Nat) (b : OpenBundle) (w : Word64) (rest : List (Nat × Word64)), n < 208 → x < 2 →
    let v := w.toNat
    let u := (s.core n).sort
    let key (i : Nat) := BitVec.ofNat 32 (laneOf (s.vecRead n 0 (vecVa v)) i)
    let own (i : Nat) := BitVec.ofNat 32 (laneOf (s.vecRead n 0 (vecVb v)) i)
    let frame (t : State) : Prop := OnlyCore s t n [] ∧ RegsKept s t [] ∧ SortFrame s t n [] ∧ SlotGone s t n x b rest (s.ctx n x).sregs
    let starts (i : Instr) (merge : Bool) : Prop := Gives i s fun t =>
      let base := if merge then u.position else 0
      (t.core n).sort = { u with
        block := u.load.map fun p => (p.2.1, p.2.2.getD (BitVec.ofNat 32 ((base + p.1) % 2 ^ 20)))
        load := [], filled := 0, position := base + u.filled, running := some (merge, bits v 20 2, bit v 19) } ∧ frame t
    (SlotWaits s n x 5 0x2E b w rest → u.filled + 128 ≤ 4096 → Gives (.sortLoad n x) s fun t =>
      (t.core n).sort = { u with
        load := u.load ++ ((List.range 128).filter (s.lane n 0 v)).map fun i =>
          (u.filled + i, key i, if bit v 22 then none else some (own i))
        filled := u.filled + 128 } ∧ frame t) ∧
    (SlotWaits s n x 5 0x2E b w rest → 4096 < u.filled + 128 → Gives (.sortLoad n x) s fun t =>
      (t.core n).sort = { u with load := (t.core n).sort.load } ∧ t = { s with cores := t.cores, free := t.free } ∧
        (∀ m, m ≠ n → t.core m = s.core m) ∧ SortFrame s t n [] ∧ SlotGone s t n x b rest (s.ctx n x).sregs) ∧
    (SlotWaits s n x 5 0x2F b w rest → u.running = none → starts (.sortRun n x) false) ∧
    (SlotWaits s n x 5 0x36 b w rest → u.running = none → starts (.sortMerge n x) true) ∧
    (∀ merge mode desc, u.running = some (merge, mode, desc) → Gives (.sortDone n) s fun t =>
      t.core n = { s.core n with sort := { u with
        retained := (sortBy (sortLe mode desc) 14 ((if merge then u.retained else []) ++ u.block)).take 4096
        block := [], running := none, outPos := 0 } } ∧ OnlyCore s t n []) ∧
    (SlotWaits s n x 5 0x37 b w rest → u.running = none → Gives (.sortOut n x) s fun t =>
      (∀ i p, i < 128 → s.lane n 0 v i = true → u.retained[u.outPos + i]? = some p →
        (vecVd v ≠ vecVb v → laneOf (t.vecRead n 0 (vecVd v)) i = p.1.toNat) ∧
          laneOf (t.vecRead n 0 (vecVb v)) i = p.2.toNat) ∧
      (∀ i, i < 128 → s.lane n 0 v i = false →
        laneOf (t.vecRead n 0 (vecVd v)) i = laneOf (s.vecRead n 0 (vecVd v)) i ∧
          laneOf (t.vecRead n 0 (vecVb v)) i = laneOf (s.vecRead n 0 (vecVb v)) i) ∧
      (t.core n).sort = { u with outPos := u.outPos + 128 } ∧ t = { s with cores := t.cores, free := t.free } ∧
      (∀ m, m ≠ n → t.core m = s.core m) ∧ SortFrame s t n [vecVd v, vecVb v] ∧ SlotGone s t n x b rest (s.ctx n x).sregs)

/-! The ROW slot. -/

/-- The row operations that run row by row: opcode of Table 4.4. -/
def Sys2Proof.Claims.rowRows : List ((Nat → CtxIn → Instr) × Nat) :=
  [(.smaxAcc, 1), (.smaxScale, 2), (.smaxFin, 3), (.smaxFull, 4), (.smaxBwd, 5), (.dot, 6), (.normFwd, 7), (.normBwd, 8)]

/-- What lets a row operation of a slot with word `w` run: its interlocks are met, its descriptor and operands lie in the
context's regions, and its shape is legal (R92, R109, R111, R149, R156, R208). -/
def Sys2Proof.Claims.RowRuns (s : State) (n x : Nat) (b : OpenBundle) (w : Nat) : Prop :=
  let d := s.rowDesc n x b w
  let last := rowSide w + d.rows - 1
  s.rowReady n x b w = true ∧ s.rowDescIn n x b w = true ∧ rowShapeOk w d = true ∧
    (rowUsesSide (slotOp w) = true → last ≤ 16383 ∧ last < (s.sideRegion n x).2) ∧
    (∀ r ∈ rowBytes w d false ++ rowBytes w d true, r.1 + r.2 ≤ (s.stageRegion n x).2) ∧
    ∀ e ∈ rowEntries w d false, e < (s.accRegion n x).2

/-- SMAX.ACC, SMAX.SCALE, SMAX.FIN, SMAX.FULL, SMAX.BWD, DOT, NORM.FWD and NORM.BWD, when their slot waits and may run, leave
in side-memory entry SIDE + r and in ALPHA of each row what the row's arithmetic gives, and in each accumulator entry that an
output row names once its element, without a mark (R117 to R125). They keep every other side-memory entry and ALPHA, every
accumulator entry outside their output rows, every stage byte outside the bytes of their output rows, and near memory outside the
statistics slot that the descriptor names; they change no register but NUM.FLAGS, and of the core nothing else but their slot and
the conditions of their stream. STAT.SAVE copies side-memory entries SIDE to SIDE + ROWS - 1 to the stage buffer, 8 bytes each,
and changes nothing else; STAT.LOAD fills the entries from the stage buffer, a marked word reading as NaN and raising POISON, and
keeps every other entry and all memory (R119, R187). That STAT.LOAD fills the entries that SIDE names is the model's reading
(log 28). -/
def Obligations.RowOperationsLeaveRowStatistics : Prop :=
  (∀ r ∈ rowRows, ∀ (s : State) (n x : Nat) (b : OpenBundle) (w : Word64) (rest : List (Nat × Word64)),
     n < 208 → x < 2 → SlotWaits s n x 6 r.2 b w rest → RowRuns s n x b w.toNat → MemoriesCanonical s → TablesCanonical s →
     let v := w.toNat
     let d := s.rowDesc n x b v
     let at0 := (s.sideRegion n x).1 + rowSide v
     let abase := (s.accRegion n x).1
     let outs := (List.range d.rows).flatMap fun i =>
       ((s.rowLine n x v d i).outs.filter fun o => !opStage o.1).flatMap fun o =>
         (indexed (abase + opEntry o.1 + i * d.pitch) o.2)
     Gives (r.1 n ⟨x, false⟩) s fun t =>
       (∀ i, i < d.rows → Sparse.get 0 (t.core n).side (at0 + i) =
         match (s.rowLine n x v d i).side with
         | some e => BitVec.ofNat 64 (e.1 + e.2 * 2 ^ 32)
         | none => Sparse.get 0 (s.core n).side (at0 + i)) ∧
       (∀ e, (e < at0 ∨ at0 + d.rows ≤ e) → Sparse.get 0 (t.core n).side e = Sparse.get 0 (s.core n).side e) ∧
       (∀ i, i < d.rows → Sparse.get 0 (t.core n).alpha (x * 128 + i) =
         match (s.rowLine n x v d i).alpha with
         | some a => BitVec.ofNat 32 a
         | none => Sparse.get 0 (s.core n).alpha (x * 128 + i)) ∧
       (∀ e, (e < x * 128 ∨ x * 128 + d.rows ≤ e) → Sparse.get 0 (t.core n).alpha e = Sparse.get 0 (s.core n).alpha e) ∧
       (∀ q ∈ outs, (∀ q' ∈ outs, q'.1 = q.1 → q' = q) →
         Sparse.get 0 (t.core n).acc q.1 = BitVec.ofNat 32 q.2 ∧ Sparse.get false (t.core n).accPoison q.1 = false) ∧
       (∀ e, e ∉ outs.map (·.1) → Sparse.get 0 (t.core n).acc e = Sparse.get 0 (s.core n).acc e ∧
         Sparse.get false (t.core n).accPoison e = Sparse.get false (s.core n).accPoison e) ∧
       StageKeptOutside s t n (shiftRanges (s.stageRegion n x).1 (rowBytes v d true)) ∧
       (∀ a, (∀ e, s.statEntry (s.ctx n x).act d.slot = some e → a < e ∨ e + 16 ≤ a) →
         t.readMem .near a 1 = s.readMem .near a 1) ∧
       t = { s with cores := t.cores, regs := t.regs, near := t.near, nearPoison := t.nearPoison } ∧
       (∀ m, m ≠ n → t.core m = s.core m) ∧ RegsKept s t [Reg.numFlags n] ∧
       t.core n = { s.core n with
         ctx0 := (t.core n).ctx0, ctx1 := (t.core n).ctx1, stage := (t.core n).stage, stagePoison := (t.core n).stagePoison
         acc := (t.core n).acc, accPoison := (t.core n).accPoison, side := (t.core n).side, alpha := (t.core n).alpha
         progressAt := s.now } ∧
       t.ctx n x = { s.ctx n x with cur := some { b with todo := rest }, conds := (t.ctx n x).conds } ∧
       ∀ y, y < 2 → y ≠ x → t.ctx n y = s.ctx n y) ∧
  ∀ (s : State) (n x : Nat) (b : OpenBundle) (w : Word64) (rest : List (Nat × Word64)), n < 208 → x < 2 →
    RowRuns s n x b w.toNat →
    let v := w.toNat
    let d := s.rowDesc n x b v
    let at0 := (s.sideRegion n x).1 + rowSide v
    let at1 := (s.stageRegion n x).1 + opAddr (d.word 0)
    (SlotWaits s n x 6 9 b w rest → MemoriesCanonical s → Gives (.statSave n ⟨x, false⟩) s fun t =>
      (∀ i, i < d.rows → t.readNum (.stage n) (at1 + 8 * i) 8 = (Sparse.get 0 (s.core n).side (at0 + i)).toNat) ∧
      StageKeptOutside s t n [(at1, 8 * d.rows)] ∧ StageFrame s t n ∧ OnlyCore s t n [] ∧
      SlotGone s t n x b rest (s.ctx n x).sregs) ∧
    (SlotWaits s n x 6 10 b w rest → Gives (.statLoad n ⟨x, false⟩) s fun t =>
      (∀ i, i < d.rows → (Sparse.get 0 (t.core n).side (at0 + i)).toNat =
        if s.marked (.stage n) (at1 + 8 * i) 8 then 0x7FC000007FC00000 else s.readNum (.stage n) (at1 + 8 * i) 8) ∧
      (∀ e, (e < at0 ∨ at0 + d.rows ≤ e) → Sparse.get 0 (t.core n).side e = Sparse.get 0 (s.core n).side e) ∧
      OnlyCore s t n [Reg.numFlags n] ∧
      t.core n = { s.core n with
        ctx0 := (t.core n).ctx0, ctx1 := (t.core n).ctx1, side := (t.core n).side, progressAt := s.now } ∧
      t.ctx n x = { s.ctx n x with cur := some { b with todo := rest }, conds := (t.ctx n x).conds } ∧
      (∀ y, y < 2 → y ≠ x → t.ctx n y = s.ctx n y) ∧
      (if (List.range d.rows).any fun i => s.marked (.stage n) (at1 + 8 * i) 8 then
        FlagsGained s t n flPoison else FlagsGained s t n 0))

/-! Bundles and the SYNC slot. -/

/-- EMPTY_BUNDLE issues the next bundle of a context that may issue when it passes its gate and marks no slot: it becomes the
open bundle with nothing to run, the scalars and predicates as they stand, and the stream offset counts it (R134, R136, R139). A
NOP only leaves its bundle (R138). BUNDLE_RETIRE of a bundle whose slots have run advances the step number under STEP and ends the
stream under LAST unless a branch was taken (R133, R147). Otherwise control goes on: in sequence to the next bundle, past every
loop of which this bundle was the last of the last pass, or to the body's first bundle where the loop has passes to go (R144); to
a branch's target, by a fetch where it lies outside the bundle buffer (R142; which words the buffer holds is the model's choice, log
13); into a body with its count, or past it where the count is 0 (R144); or past the body that BREAKIF leaves (R145). The retirement of
a halted context's bundle takes the bundle and the step alone. Each completes; beside the context nothing changes, and of the
context nothing but what is named. -/
def Obligations.BundlesIssueAndRetire : Prop :=
  ∀ (s : State) (n x : Nat), n < 208 → x < 2 →
    let c := s.ctx n x
    let h := s.streamWord c c.word
    (c.cur = none → c.reload = false → s.mayIssue n x = true → s.gate n x = .go → s.bundleSlots c c.word = [] →
      Gives (.emptyBundle n x) s fun t => ∃ b : OpenBundle,
        b = { word := c.word, length := hdrLength h, off := c.off, flags := BitVec.ofNat 8 (bits h 8 8),
              tag := s.bundleTag c c.word, step := c.step, todo := [], sregs := c.sregs, preds := c.preds, ctl := .seq } ∧
        CtxBecomes s t n x { c with
          cur := some b, off := (c.off + 1) % 2 ^ 32, word := c.word + hdrLength h, syncDone := false, state := .issuing
          lastIssue := s.now
          notifies := if bit h 12 then c.notifies ++ [(c.off, b.tag)] else c.notifies }) ∧
    (∀ (j : Nat) (b : OpenBundle) (w : Word64) (rest : List (Nat × Word64)), j < 8 → SlotWaits s n x j 0 b w rest →
      Gives (.nop n x j) s fun t => CtxBecomes s t n x { c with cur := some { b with todo := rest } }) ∧
    ∀ b : OpenBundle, c.cur = some b → b.todo = [] → c.lib = none →
      let z := { c with cur := none, step := if b.flags.getLsbD 3 then (c.step + 1) % 2 ^ 32 else c.step }
      let last := b.flags.getLsbD 2
      let gives (z : SeqCtx) : Prop := Gives (.bundleRetire n x) s fun t => CtxBecomes s t n x z
      let goes (loops : List LoopLvl) (w : Nat) : Prop :=
        gives { z with loops := loops, word := w, fetched := max c.fetched (w + 1 - 16384) }
      (c.state = .halted → gives z) ∧
      (c.state ≠ .halted → last = true → (∀ w, b.ctl ≠ .jump w) → gives { z with ended := true, loops := [] }) ∧
      (c.state ≠ .halted → last = false → b.ctl = .seq → ∀ closed open_ : List LoopLvl, c.loops = closed ++ open_ →
        (∀ l ∈ closed, l.last = b.word ∧ l.count ≤ l.index + 1) →
        ((∀ l ∈ open_.head?, l.last ≠ b.word) → goes open_ (b.word + b.length)) ∧
        (∀ l ls, open_ = l :: ls → l.last = b.word → l.index + 1 < l.count →
          goes ({ l with index := l.index + 1 } :: ls) l.first)) ∧
      (c.state ≠ .halted → ∀ w, b.ctl = .jump w →
        (c.fetched ≤ w → w < c.fetched + 16384 → goes c.loops w) ∧
        ((w < c.fetched ∨ c.fetched + 16384 ≤ w) → gives { z with word := w, state := .waitFetch })) ∧
      (c.state ≠ .halted → last = false → ∀ count first end_, b.ctl = .enter count first end_ →
        (count ≠ 0 → goes ({ count := count, index := 0, first := first, last := end_ } :: c.loops) first) ∧
        (count = 0 → (∀ l ∈ c.loops.head?, l.last ≠ end_) →
          goes c.loops (end_ + hdrLength (s.streamWord c end_)))) ∧
      (c.state ≠ .halted → last = false → b.ctl = .leave → ∀ l ls, c.loops = l :: ls →
        (∀ y ∈ ls.head?, y.last ≠ l.last) → goes ls (l.last + hdrLength (s.streamWord c l.last)))

/-- A bundle that does not pass the checks of R126, R134, R135, R138 or R168 completes with a decode fault: none of its slots has an
effect, its stream's queue, if it is not resetting, is in HALT_DECODE and its context halts with the condition noted, and the record
SEQ.FAULT names its slot, status and tag (for a sideshow's bundle the stream offset, R136) and SEQ.FAULTPOS the word where it
stands, unless a record is held, which then stays (R164). The core's registers, buffers and engines and its other context are as
they were. Stated of EMPTY_BUNDLE, which takes the fault as every slot command does. -/
def Obligations.MalformedBundleHaltsItsQueue : Prop :=
  ∀ (s : State) (n x q : Nat), n < 208 → x < 2 → q < 65536 →
    let c := s.ctx n x
    let f := firstFault (s.decodeFaults n x c c.word)
    let r (t : State) := t.reg (Reg.seqFault n x)
    c.cur = none → c.reload = false → c.queue = some q → s.mayIssue n x = true → s.qState q ≠ 7 →
    (s.fld (Reg.qmQRuncnt q) Fld.qmQRuncntN ≠ c.off ∨ s.fld (Reg.qmQRuncnt q) Fld.qmQRuncntN = 0) →
    s.genWaits n x c c.word = false → s.decodeFaults n x c c.word ≠ [] →
    Gives (.emptyBundle n x) s fun t =>
      (bit (r s) 0 = false →
        bits (r t) 0 1 = 1 ∧ bits (r t) 1 3 = f.1 % 8 ∧ bits (r t) 4 1 = 1 ∧ bits (r t) 8 8 = f.2 % 256 ∧
        bits (r t) 32 32 = (recTag x c.off (s.bundleTag c c.word)).toNat ∧ t.reg (Reg.seqFaultpos n x) = c.word % 2 ^ 64) ∧
      (bit (r s) 0 = true → r t = r s ∧ t.reg (Reg.seqFaultpos n x) = s.reg (Reg.seqFaultpos n x)) ∧
      t.qState q = 5 ∧ (∃ y ∈ (t.ctx n x).conds, y.1 = f.2) ∧
      t.ctx n x = { c with state := .halted, conds := (t.ctx n x).conds } ∧ (∀ y, y < 2 → y ≠ x → t.ctx n y = s.ctx n y) ∧
      CtxFrame s t n ∧ ∀ m, m ≠ n → t.core m = s.core m

/-- NOTIFY, once every effect of the oldest NOTIFY bundle is complete, writes its event with the stream offset and forgets the
bundle (R133). RUN_COUNT_HALT, when the bound stream stands before the bundle whose offset is RUNCNT and every earlier effect
is complete, writes a RUNCOUNT event and halts the queue (R137). RESUME_RECORD at a sync point with room for the record, once
every earlier effect is complete, keeps the record for the queue, shows its place in SEQ.SYNCPOS and lets the bundle issue
(R159); which bytes it writes into the resume area is open (log 11). It is stated of a stream that stays bound: of no doubled core
whose other stream is ready (R341) and no sideshow's for which a TEST stream waits (R404). -/
def Obligations.StreamMarksAreWritten : Prop :=
  ∀ (s : State) (n x : Nat), n < 208 → x < 2 →
    let c := s.ctx n x
    (∀ off tag rest, c.notifies = (off, tag) :: rest → s.bundleDone n x off = true →
      Leaves (.notify n x) s ((s.modCtx n x fun c => { c with notifies := rest }).ctxEvent n x 0x02 0 off tag
        (leBytes 4 off))) ∧
    (∀ q, q < 65536 → (s.queue q).bound = some (n, x) → c.queue = some q → s.fld (Reg.qmQRuncnt q) Fld.qmQRuncntN = c.off →
      c.off ≠ 0 → c.reload = false → c.state ≠ .halted → c.ended = false → s.quiet n x = true →
      Leaves (.runCountHalt q) s ((s.ctxEvent n x 0x04 0 c.off 0 (leBytes 4 c.off)).haltStream n x 4)) ∧
    (∀ q, c.queue = some q → c.cur = none → s.mayIssue n x = true → c.word < c.words →
      hdrSync (s.streamWord c c.word) = true → c.syncDone = false → s.decodeFaults n x c c.word = [] → c.resume ≠ 0 →
      s.recordBytes n x ≤ c.resumeKib * 1024 → s.quiet n x = true → (x = 0 → s.otherReady n = false) →
      (x = 1 → s.testWaits n = false) →
      Gives (.resumeRecord n x) s fun t =>
        (t.queue q).rec_ = some (s.resumeRec n x) ∧
        t.ctx n x = { c with syncDone := true, state := .issuing, copyCons := (t.ctx n x).copyCons } ∧
        t.reg (Reg.seqSyncpos n x) = (c.off + c.word * 2 ^ 32) % 2 ^ 64 ∧ CtxFrame s t n ∧
        (∀ y, y < 2 → y ≠ x → t.ctx n y = s.ctx n y) ∧ ∀ m, m ≠ n → t.core m = s.core m)

/-- FENCE leaves its bundle and does nothing more, its gate having let it issue only once every earlier effect is complete.
SIGNAL adds itself to the context's signals. WAIT that repeats one its queue has applied sets PD at once (R342); one whose
semaphore holds N takes N, sets PD and is applied, and every other semaphore, predicate, queue and core stays; any other waits
(R157, R158). CUEWAIT of an entry of its own act waits, or only leaves its bundle when the entry is a one-shot that has fired, and
BUCKET offers its descriptor under the tag SX[15:0] (R157, R203, R277). SX = 0 as the field that names s0 is the model's reading
(log 158). -/
def Obligations.SyncOperationsIssue : Prop :=
  ∀ (s : State) (n x : Nat) (b : OpenBundle) (w : Word64) (rest : List (Nat × Word64)), n < 208 → x < 2 →
    let v := w.toNat
    let c := { s.ctx n x with cur := some { b with todo := rest } }
    let sx := b.sreg (bits v 42 5)
    let k := bits v 47 6
    let e := bits v 30 9
    let wait : SemWait :=
      { sem := k, n := bits v 14 16, deadline := if bits v 42 5 = 0 then none else some sx, pd := bits v 39 3, off := b.off,
        tag := b.tag, began := s.now }
    let fired := s.reg (Reg.cuePeriod e) = 0 ∧ s.flag (Reg.cueCtl e) Fld.cueCtlFired = true
    let pdSet (t : State) : Prop := ∀ p, p < 8 →
      (t.ctx n x).preds.getLsbD p = if p = wait.pd then true else c.preds.getLsbD p
    (SlotWaits s n x 7 1 b w rest → Gives (.fence n x) s fun t => CtxBecomes s t n x c) ∧
    (SlotWaits s n x 7 2 b w rest → Gives (.signal n x) s fun t => CtxBecomes s t n x { c with
      sigs := c.sigs ++ [{ sem := k, n := bits v 14 16, off := b.off, word := b.word, tag := b.tag }] }) ∧
    (SlotWaits s n x 7 3 b w rest → s.applied n x b.off = false → wait.n ≤ s.sem c.act k → Gives (.wait n x) s fun t =>
      t.sem c.act k = s.sem c.act k - wait.n ∧ (∀ a j, j < 64 → (a, j) ≠ (c.act, k) → t.sem a j = s.sem a j) ∧ pdSet t ∧
      t.ctx n x = { c with wait := none, preds := (t.ctx n x).preds } ∧ (∀ y, y < 2 → y ≠ x → t.ctx n y = s.ctx n y) ∧
      t.core n = { s.core n with ctx0 := (t.core n).ctx0, ctx1 := (t.core n).ctx1, progressAt := s.now } ∧
      t = { s with cores := t.cores, sems := t.sems, queues := t.queues } ∧ (∀ m, m ≠ n → t.core m = s.core m) ∧
      ∀ q, t.queue q = if c.queue = some q then { s.queue q with sigHigh := some b.off } else s.queue q) ∧
    (SlotWaits s n x 7 3 b w rest → s.applied n x b.off = false → s.sem c.act k < wait.n → Gives (.wait n x) s fun t =>
      CtxBecomes s t n x { c with wait := some wait }) ∧
    (SlotWaits s n x 7 3 b w rest → s.applied n x b.off = true → Gives (.wait n x) s fun t =>
      pdSet t ∧ CtxBecomes s t n x { c with preds := (t.ctx n x).preds }) ∧
    (SlotWaits s n x 7 4 b w rest → s.fld (Reg.cueCtl e) Fld.cueCtlAct = c.act →
      (¬fired → Gives (.cuewait n x) s fun t => CtxBecomes s t n x { c with cueWait := some (e, s.now) }) ∧
      (fired → Gives (.cuewait n x) s fun t => CtxBecomes s t n x c)) ∧
    (SlotWaits s n x 7 5 b w rest → Gives (.bucket n x) s fun t =>
      CtxBecomes s t n x { c with bucketWait := some { acd := k, tag := bits sx 0 16, off := b.off, step := b.step } })

/-- SIGNAL_APPLY, once every effect of the SIGNAL's bundle and of earlier ones is complete, adds N to the semaphore, when it
is not a repeat and the sum stays below 2^32, before any waiter takes from it; a repeat has no effect beyond leaving the list
(R157, R342); a sum that would pass 2^32 - 1 is an execution fault. WAIT_DEADLINE past the deadline ends the WAIT with PD clear and
DEADLINE_MISSED among the stream's conditions, and a TIME event tells of it (R158, R200; the event's type is a reading, log 143).
EVENT writes a USER event that carries SX (R157), and marks a phase when SX[63:48] is 0x5048 (R211). -/
def Obligations.SyncOperationsComplete : Prop :=
  ∀ (s : State) (n x : Nat), n < 208 → x < 2 →
    let c := s.ctx n x
    (∀ g rest, c.sigs = g :: rest → s.signalReady n x g.off = true →
      let u := s.modCtx n x fun c => { c with sigs := rest }
      (s.applied n x g.off = false → s.sem c.act g.sem + g.n < 2 ^ 32 → Leaves (.signalApply n x) s
        (((u.noteApplied n x g.off).setSem c.act g.sem (s.sem c.act g.sem + g.n)).wakeWaits c.act)) ∧
      (s.applied n x g.off = true → Gives (.signalApply n x) s fun t => CtxBecomes s t n x { c with sigs := rest }) ∧
      (s.applied n x g.off = false → 2 ^ 32 ≤ s.sem c.act g.sem + g.n →
        Leaves (.signalApply n x) s (u.execFault n x 7 2 g.word g.off g.tag))) ∧
    (∀ v d, c.wait = some v → v.deadline = some d → max d v.began < s.now → ∃ u : State,
      Leaves (.waitDeadline n x) s (u.ctxEvent n x 0x09 0x40 v.off v.tag (openPayload 0x09 0x40 c.act s.now)) ∧
      u.ctx n x = { c with wait := none, preds := (u.ctx n x).preds, conds := noted c.conds 0x40 (recTag x v.off v.tag) } ∧
      (∀ p, p < 8 → (u.ctx n x).preds.getLsbD p = if p = v.pd then false else c.preds.getLsbD p) ∧
      (∀ y, y < 2 → y ≠ x → u.ctx n y = s.ctx n y) ∧
      u.core n = { s.core n with ctx0 := (u.core n).ctx0, ctx1 := (u.core n).ctx1, progressAt := s.now } ∧
      OnlyCore s u n []) ∧
    (∀ (b : OpenBundle) (w : Word64) (rest : List (Nat × Word64)), SlotWaits s n x 7 6 b w rest →
      let sx := b.sreg (bits w.toNat 42 5)
      let u := (slotTaken s n x 7 b rest).ctxEvent n x 0x03 0 b.off b.tag (leBytes 8 sx)
      Leaves (.event n x) s
        (if bits sx 48 16 = 0x5048 then u.phaseMark c.act (bits sx 0 3) c.lastIssue else u))

/-! Registers. -/

/-- A write of the bits `m` of `v` to any register of the map leaves each field as its access type says (Table 0.4): an RW field
takes the covered bits, unless its table shuts the value out; a W1C field loses the bits to which a covered 1 was written; a
field of another type stays; and every bit that belongs to no field stays (R9). That a value outside a field's range leaves it as
it was is the model's reading (log 90). -/
def Obligations.RegisterFieldsFollowAccessTypes : Prop :=
  ∀ r ∈ regMap, ∀ m v w : Nat,
    (∀ f ∈ r.fields,
      let fld (x : Nat) := bits x f.fld.lo f.fld.w
      let new := mergeBits (fld w) (fld m) (fld v)
      fld (r.write m v w) = match f.access with
        | .rw => if f.allows new then new else fld w
        | .w1c => fld w - (fld w &&& (fld m &&& fld v))
        | _ => fld w) ∧
    ∀ i, (∀ f ∈ r.fields, i < f.fld.lo ∨ f.fld.lo + f.fld.w ≤ i) → (r.write m v w).testBit i = w.testBit i

/-- The registers whose write has steps of its own, by their base. -/
def Sys2Proof.Claims.ownSteps : List Nat :=
  [Reg.qmQsel 0, Reg.qmQCtl 0, Reg.evtMod 0, Reg.evtTest, Reg.qmActEvq 0, Reg.sckTod, Reg.sckPtpAt, Reg.sckHeadline,
   Reg.mxCtl 0, Reg.numTileNan 0, Reg.mxXpfault 0, Reg.vxFault 0, Reg.seqFault 0 0, Reg.carPoison 0, Reg.lnkCtl 0,
   Reg.netCoreCmd, Reg.bbxCtl, Reg.bootCtl, Reg.bootFlashCmd, Reg.prbCmd, Reg.prbToken 0]

/-- Once start-up has come to PHASE 0x6, an aligned REGISTER_WRITE of act 0, of the size of the register, to a register that has no step of
its own, is not configuration of a created queue and lies in no core window that holds still, leaves the register as the access types of
its fields and its own rules say and changes nothing else (R8, R28, R368). An aligned 8-byte write of TOP.SCRATCH is taken from the time
the module is out of reset and reads back whole (Table 1.7). An aligned RC_READ of act 0, of the size of the register, of a resource that
is present and of no core window that holds still, returns the register's word as it stood, then leaves in each RC field of the register
what the read leaves there, zero unless the field is an extreme since the last read, and keeps every other field and every other register;
nothing else changes (R10, R29). Where an extreme starts again is the model's reading (log 98). -/
def Obligations.RegisterWritesAndReadsReachTheirRegister : Prop :=
  ((∀ (s : State) (off val : Nat) (r : RegDef), s.hostOk 0 = true → s.started = true → off % r.bytes = 0 →
     s.barKey 0 off = some off → findReg off = some r → r ∈ regMap → s.writeShut off r = false →
     r.base ∉ ownSteps → (r.base < Reg.cueFireAt 0 ∨ Reg.cueArg 0 < r.base) →
     Gives (.registerWrite 0 off r.bytes val) s fun t =>
       t.reg off = ruledWrite r (256 ^ r.bytes - 1) (val % 256 ^ r.bytes) (s.reg off) % 2 ^ 64 ∧ OnlyRegs s t [off]) ∧
   ∀ (s : State) (val : Nat), s.hostOk 0 = true → Gives (.registerWrite 0 Reg.topScratch 8 val) s fun t =>
     t.reg Reg.topScratch = val % 2 ^ 64 ∧ OnlyRegs s t [Reg.topScratch]) ∧
  ∀ (s : State) (off : Nat) (r : RegDef), s.hostOk 0 = true → off % r.bytes = 0 → s.barKey 0 off = some off →
    findReg off = some r → r ∈ regMap → s.windowShut off = false → s.absent off = false →
    Gives (.rcRead 0 off r.bytes) s fun t =>
      t.out = s.out ++ [.data 0 off (leBytes r.bytes (s.regWord off r))] ∧
      (∀ f ∈ r.fields, t.fld off f.fld =
        if f.access = .rc then s.rcRestart off r % 2 ^ f.fld.w else s.fld off f.fld) ∧
      t = { s with regs := t.regs, out := t.out } ∧ RegsKept s t [off]

/-- An access to BAR0 that is not of 4 or 8 bytes, or not aligned to its size, is answered with Unsupported Request and an ACCESS_DENIED
event for act 0, whether it is given as a read, a write or as itself, and reads and writes no register. An aligned read of 4 or 8 bytes
is answered with as many bytes, and an aligned write of 4 or 8 bytes is taken, as TOP.SCRATCH and its two halves show. An aligned access
that reaches no register reads zeros, or is ignored, and no event is written (R28). -/
def Obligations.AccessesFollowSizeAndAlignment : Prop :=
  ∀ (s : State) (fn off size val : Nat), fn < 9 → s.hostOk fn = true →
    (barAligned off size = false → ∃ r : EvRec, r.status = 3 ∧ r.act = 0 ∧
      let u := (s.emit (.ur fn off)).event r
      Leaves (.unsupportedBar0Access fn off size) s u ∧ Leaves (.rcRead fn off size) s u ∧
        Leaves (.registerWrite fn off size val) s u) ∧
    (barAligned off size = true → Gives (.rcRead fn off size) s fun t =>
      ∃ bs : Bytes, bs.length = size ∧ t.out = s.out ++ [.data fn off bs]) ∧
    (s.hostOk 0 = true →
      (Gives (.registerWrite 0 Reg.topScratch 8 val) s fun t =>
        t.reg Reg.topScratch = val % 2 ^ 64 ∧ OnlyRegs s t [Reg.topScratch]) ∧
      (Gives (.registerWrite 0 Reg.topScratch 4 val) s fun t => OnlyRegs s t [Reg.topScratch] ∧
        bits (t.reg Reg.topScratch) 0 32 = val % 2 ^ 32 ∧
        bits (t.reg Reg.topScratch) 32 32 = bits (s.reg Reg.topScratch) 32 32) ∧
      (Gives (.registerWrite 0 (Reg.topScratch + 4) 4 val) s fun t => OnlyRegs s t [Reg.topScratch] ∧
        bits (t.reg Reg.topScratch) 32 32 = val % 2 ^ 32 ∧
        bits (t.reg Reg.topScratch) 0 32 = bits (s.reg Reg.topScratch) 0 32)) ∧
    (barAligned off size = true → s.reached fn off size = [] → (fn = 0 ∨ 0x8600 ≤ off) →
      Leaves (.registerWrite fn off size val) s s ∧
        Leaves (.rcRead fn off size) s (s.emit (.data fn off (List.replicate size 0))))

/-- Every aligned access of act 0 to a register of an absent resource reads zeros or is ignored: in the window of a core that is fused
off, in MD.VID_PIXELS of the second video block of a Midway on a PN96-B, and in the block of a far port that is not bonded (R30). -/
def Obligations.AbsentResourcesReadZeroAndIgnoreWrites : Prop :=
  ∀ (s : State) (off size val : Nat), s.hostOk 0 = true → barAligned off size = true →
    ((∃ n, n < 208 ∧ s.coreState n = 0 ∧ 0x1000000 + n * 0x10000 ≤ off ∧ off < 0x1000000 + (n + 1) * 0x10000) ∨
      (s.fuse.grade ≠ 1 ∧ ∃ m, m < 2 ∧ off / 8 * 8 = Reg.mdVidPixels m 1) ∨
      (∃ p, p < 4 ∧ s.farBonded p = false ∧ 0xA80000 + p * 0x100 ≤ off ∧ off < 0xA80000 + (p + 1) * 0x100)) →
    Leaves (.registerWrite 0 off size val) s s ∧
      Leaves (.rcRead 0 off size) s (s.emit (.data 0 off (List.replicate size 0)))

/-- No step changes what any CAP register reads; its maps read the cores as they are fused, whatever NET.CORE_n says of them, and NET.CORE_n
of a core in its window shows the core's live state (R35). -/
def Obligations.CapNeverChanges : Prop :=
  (∀ s t : State, Steps s t → ∀ k r, 0x1000 ≤ k → k < 0x2000 → findReg k = some r → t.regWord k r = s.regWord k r) ∧
  (∀ (s : State) (n : Nat) (r : RegDef), n < 208 →
    (findReg (Reg.capCoreEn (n / 32)) = some r →
      bit (s.regWord (Reg.capCoreEn (n / 32)) r) (n % 32) = s.fuse.enabled.getLsbD n) ∧
    (findReg (Reg.capCoreSp (n / 32)) = some r →
      bit (s.regWord (Reg.capCoreSp (n / 32)) r) (n % 32) = s.fuse.spares.getLsbD n) ∧
    (findReg (Reg.netCore n) = some r → bits (s.regWord (Reg.netCore n) r) 0 3 = s.coreState n))

/-- A 1 written to VALID by act 0, once start-up has come to PHASE 0x6 and while the core's window takes writes, clears VALID
of the record and what its table names with it: NUM.TILE_NAN its COUNT, MX.XPFAULT MX.XPPOS, VX.FAULT VX.ADDR, SEQ.FAULT
SEQ.FAULTPOS of the context, and CAR.POISON_a CAR.POISON_POS_a; every other bit of the record, no other register and nothing else
changes (R71, R103, R131, R169, R306). ACC_SPLIT of MX.CTL takes effect once neither engine has a product in flight (R91);
RES_INJECT arms one mismatch on a core that runs in TEST context (R102); SB_SIDESHOW of MEM.CTL, and ACC_SS and SIDE_SS of
SCK.SS_CTL, take effect on a core that holds no sideshow act (R172, R208), and the next sideshow act bound there is scrubbed
first (the model's reading, log 50). Nothing but the core changes. -/
def Obligations.RecordsClearAndCoreSettingsTakeEffect : Prop :=
  (∀ (s : State) (n x a : Nat), n < 208 → x < 2 → 1 ≤ a → a < 9 → s.hostOk 0 = true → s.started = true →
     let clears (c : Instr) (k pos : Nat) : Prop := Gives c s fun t => bit (t.reg k) 0 = false ∧ t.reg pos = 0 ∧
       (∀ i, i < 64 → i ≠ 0 → (t.reg k).testBit i = (s.reg k).testBit i) ∧ OnlyRegs s t [k, pos]
     (s.windowShut (0x1000000 + n * 0x10000) = false →
       (Gives (.tileNanClear n) s fun t =>
         t.fld (Reg.numTileNan n) Fld.numTileNanValid = 0 ∧ t.fld (Reg.numTileNan n) Fld.numTileNanCount = 0 ∧
           (∀ i, i < 64 → (i < 15 ∨ 32 ≤ i) → (t.reg (Reg.numTileNan n)).testBit i = (s.reg (Reg.numTileNan n)).testBit i) ∧
           OnlyRegs s t [Reg.numTileNan n]) ∧
       clears (.xpfaultClear n) (Reg.mxXpfault n) (Reg.mxXppos n) ∧ clears (.vxFaultClear n) (Reg.vxFault n) (Reg.vxAddr n) ∧
       clears (.seqFaultClear n x) (Reg.seqFault n x) (Reg.seqFaultpos n x)) ∧
     clears (.carPoisonClear a) (Reg.carPoison a) (Reg.carPoisonPos a)) ∧
  ∀ (s : State) (n : Nat), n < 208 →
    let k := s.core n
    let ctx1 := { k.ctx1 with lastAct := none }
    let becomes (c : Instr) (k' : Core) : Prop := Gives c s fun t => t.core n = k' ∧ OnlyCore s t n []
    (k.fwd = [] → k.bwd = [] → becomes (.accSplitApply n) { k with accSplit := s.fld (Reg.mxCtl n) Fld.mxCtlAccSplit }) ∧
    ((s.ctx n 0).queue.isSome = true → (s.ctx n 0).kind = 2 → becomes (.resInject n) { k with resInject := true }) ∧
    ((s.ctx n 1).queue = none → k.sideHolder = none →
      becomes (.sbSideshowApply n) { k with sbSideshow := s.fld Reg.memCtl Fld.memCtlSbSideshow, ctx1 := ctx1 } ∧
      becomes (.ssRegionApply n) { k with accSs := s.fld Reg.sckSsCtl Fld.sckSsCtlAccSs
                                          sideSs := s.fld Reg.sckSsCtl Fld.sckSsCtlSideSs, ctx1 := ctx1 })

/-! The matrix engines. -/

/-- PRODUCT, when its slot waits, its descriptor and generator block are aligned, inside the context's region and no longer awaited,
and its checks find nothing, puts the product behind those of its engine (R126, R139, R151, R152). WEIGHT_LOAD of the engine's
active product, once its weight operand is complete, enters the weights and starts its rows; it costs 128 cycles of LOAD unless the
arrays hold the tile already (R78, R90), raises POISON and notes NUMERIC_POISON for a poisoned group (R63), and leaves a packed
port's level at 0. PRODUCT_COMPLETE takes a product whose last row has been taken out of its engine and counts one use of its
descriptor; at the last use COMPLETE is set, and POISON when the region holds a poisoned or NaN entry (R94, R95). Nothing else of the
core, no memory and no other register changes. -/
def Obligations.ProductsIssueLoadAndComplete : Prop :=
  ∀ (s : State) (n e : Nat), n < 208 → e < 2 →
    (∀ (x : Nat) (b : OpenBundle) (w : Word64) (rest : List (Nat × Word64)), x < 2 → SlotWaits s n x (3 + e) 1 b w rest →
      let v := w.toNat
      let r := s.stageRegion n x
      let a := b.sreg (bits v 31 5)
      let ga := b.sreg (bits v 26 5)
      let gen := bit v 44
      let raw := s.readMem (.stage n) (r.1 + a) 64
      let graw := s.readMem (.stage n) (r.1 + ga) 32
      let p := parseProduct (s.core n).nextXfer x (s.ctx n x).act b.off b.tag v raw
        (if gen then some (genBlock graw (bit v 43)) else none)
      State.productReady n x s b v = true → a % 64 = 0 → a + 64 ≤ r.2 →
      (gen = true → ga % 32 = 0 ∧ ga + 32 ≤ r.2 ∧ genReserved graw = false ∧ (genBlock graw (bit v 43)).ok (e = 0) = true) →
      s.productFaults n x e v raw p = [] →
      Gives (.product n ⟨x, false⟩ e) s fun t =>
        t.core n = { (s.core n).setEngine e ((s.core n).engine e ++ [p]) with
          nextXfer := (s.core n).nextXfer + 1, ctx0 := (t.core n).ctx0, ctx1 := (t.core n).ctx1 } ∧
        OnlyCore s t n [] ∧ SlotGone s t n x b rest (s.ctx n x).sregs) ∧
    (∀ p, (s.core n).active e = some p → p.ctx < 2 → (p.phase = .queued ∨ p.phase = .loading) →
      s.portReady n e p true (p.needed true) = true → Gives (.weightLoad n ⟨e, false⟩) s fun t =>
        let w := s.wgtEls n e p
        let q := { p with phase := .streaming, row := 0, weights := w }
        let bad := w.any fun a => a.any fun c => c.any El.poison
        t.core n = { (s.core n).setProduct e q with
          loaded := Sparse.put (s.core n).loaded e q, ctx0 := (t.core n).ctx0, ctx1 := (t.core n).ctx1 } ∧
        CondsNoted s t n p.ctx bad 0x20 (recTag p.ctx p.off p.tag) ∧
        t.fld (Reg.mxCnt n e 1) Fld.mxCntCount =
          (s.fld (Reg.mxCnt n e 1) Fld.mxCntCount + if (s.core n).holdsTile e p w then 0 else 128) % 2 ^ 64 ∧
        FlagsGained s t n (if bad then flPoison else 0) ∧
        (p.wview.packed = true → t.fld (Reg.mxXpq n (xpPort e true)) Fld.mxXpqLevel = 0) ∧
        ((p.genAt true).isSome = true → t.reg (Reg.cvPos n e) = (p.k0 + p.kp - 1) % 2 ^ 48) ∧
        OnlyCore s t n ([Reg.numFlags n, Reg.mxCnt n e 1] ++ (if p.wview.packed then [Reg.mxXpq n (xpPort e true)] else []) ++
          if (p.genAt true).isSome then [Reg.cvPos n e] else [])) ∧
    ∀ (p : Product) (more : List Product), (s.core n).engine e = p :: more → p.phase = .draining →
      Gives (.productComplete n e) s fun t =>
        t.core n = (s.core n).setEngine e more ∧ OnlyCore s t n (p.acd.toList.map fun k => Reg.mxAcd1 n k) ∧
        ∀ k, p.acd = some k →
          let d := s.reg (Reg.mxAcd0 n k)
          let done := min (s.fld (Reg.mxAcd1 n k) Fld.mxAcd1Done + 1) 65535
          let last : Bool := decide (bits d 48 16 ≤ done)
          let bad := (List.range (bits d 20 20)).any fun i =>
            let j := (s.accRegion n p.ctx).1 + bits d 0 19 + i
            Sparse.get false (s.core n).accPoison j || F32.isNan (Sparse.get 0 (s.core n).acc j).toNat
          t.fld (Reg.mxAcd1 n k) Fld.mxAcd1Done = done ∧
          t.fld (Reg.mxAcd1 n k) Fld.mxAcd1Complete = (if last then 1 else s.fld (Reg.mxAcd1 n k) Fld.mxAcd1Complete) ∧
          t.fld (Reg.mxAcd1 n k) Fld.mxAcd1Poison = if last && bad then 1 else s.fld (Reg.mxAcd1 n k) Fld.mxAcd1Poison

/-- ACTIVATION_ROW of a streaming product, when its operands are complete, nothing else holds its destination, and the arrays' checks
find no mismatch, gives every destination entry that it names once the value of R81 over the row's spans, keeps every other entry
of the accumulator, and clears the marks of those it writes under WRITE alone (R79, R81, R93). The product moves on one row; after
its last the engine's ports start afresh, keeping their table caches (R96); a poisoned group raises POISON and notes NUMERIC_POISON
(R63); the row costs d cycles of BUSY. Nothing else of the core, no memory and no other register changes. A mismatch that the checks
find instead leaves the accumulator as it was, is recorded in MX.FAULT and fences the core (R101); an uncorrectable error in what the
row reads fences it with cause 2, and the accumulator stays too (R179, R338). -/
def Obligations.ActivationRowWritesItsEntries : Prop :=
  ∀ (s : State) (n e : Nat) (p : Product), n < 208 → e < 2 → (s.core n).active e = some p → p.phase = .streaming → p.ctx < 2 →
    Sparse.wf 0 (s.core n).acc = true → Sparse.wf false (s.core n).accPoison = true →
    let ts := s.rowTargets n p p.row
    let act := s.actEls n e p p.row
    let last : Bool := decide (p.row + 1 = p.rows)
    s.portReady n e p false (p.lineNeeded false (p.row0 + p.row)) = true → s.accBusy n p.idx (ts.map (·.1)) = false →
    s.accHeld n p.idx (ts.map (·.1)) = false →
    (s.injects n e p = false → Gives (.activationRow n e ⟨none, false⟩) s fun t =>
      (∀ q ∈ ts, (∀ q' ∈ ts, q'.1 = q.1 → q' = q) →
        (Sparse.get 0 (t.core n).acc q.1).toNat =
          tapRow p.mode (Sparse.get 0 (s.core n).acc q.1).toNat
            (spansOf p.g act ((((p.weights[q.2.1]?).getD [])[q.2.2]?).getD [])) % 2 ^ 32 ∧
        Sparse.get false (t.core n).accPoison q.1 =
          if p.mode = 0 then false else Sparse.get false (s.core n).accPoison q.1) ∧
      (∀ k, k ∉ ts.map (·.1) → Sparse.get 0 (t.core n).acc k = Sparse.get 0 (s.core n).acc k ∧
        Sparse.get false (t.core n).accPoison k = Sparse.get false (s.core n).accPoison k) ∧
      t.core n = { (s.core n).setProduct e { p with row := p.row + 1, phase := if last then .draining else .streaming } with
        acc := (t.core n).acc, accPoison := (t.core n).accPoison, xps := (t.core n).xps, progressAt := s.now
        ctx0 := (t.core n).ctx0, ctx1 := (t.core n).ctx1 } ∧
      (∀ y, (t.core n).xp y =
        if last && y / 2 = e then { Xp.reset with cache := ((s.core n).xp y).cache } else (s.core n).xp y) ∧
      CondsNoted s t n p.ctx (act.any El.poison) 0x20 (recTag p.ctx p.off p.tag) ∧
      t.fld (Reg.mxCnt n e 0) Fld.mxCntCount =
        (s.fld (Reg.mxCnt n e 0) Fld.mxCntCount + digits p.aview.fmt) % 2 ^ 64 ∧
      FlagsGained s t n (if act.any El.poison then flPoison else 0) ∧
      ((p.genAt false).isSome = true → t.reg (Reg.cvPos n e) = (p.row0 + p.row) % 2 ^ 48) ∧
      OnlyCore s t n ([Reg.numFlags n, Reg.mxCnt n e 0] ++ (if (p.genAt false).isSome then [Reg.cvPos n e] else []) ++
        if last ∨ p.aview.packed = true then [Reg.mxXpq n (2 * e), Reg.mxXpq n (2 * e + 1)] else [])) ∧
    (s.coreState n ≠ 0 → s.coreState n ≠ 4 →
      (∀ m : Mismatch, s.injects n e p = false → bit (s.reg (Reg.mxFault n)) 0 = false →
        Gives (.activationRow n e ⟨some m, false⟩) s fun t =>
          (t.core n).acc = (s.core n).acc ∧ t.coreState n = 4 ∧ t.fld (Reg.netCore n) Fld.netCoreCause = 1 ∧
          bit (t.reg (Reg.mxFault n)) 0 = true ∧ bits (t.reg (Reg.mxFault n)) 1 2 = m.kind.toNat) ∧
      ∀ mis : Option Mismatch, Gives (.activationRow n e ⟨mis, true⟩) s fun t =>
        (t.core n).acc = (s.core n).acc ∧ t.coreState n = 4 ∧ t.fld (Reg.netCore n) Fld.netCoreCause = 2)

/-- EXPANDER_BLOCK of a packed operand that its port still needs, when its block lies in the region, is no longer awaited, needs no code
table that is missing and expands, advances the port past the block and adds the block's elements (R96, R97); a block that a packed
DIN in flight brings is released to it first (R184). A block that fails before any row is taken from it marks every destination
entry of its product, takes the product out of its engine and halts the stream, with the fault in MX.XPFAULT (R93, R98).
TABLE_FETCH_DONE of a resident generation puts the table at the end of the port's cache of four and ends the fetch (R97; the order
in which the tables leave the cache is the model's choice, log 152). Nothing else of the core, no memory and no register but the
port's MX.XPQ changes where the block expands, and none where the table comes. -/
def Obligations.ExpandersReadBlocksAndTables : Prop :=
  ∀ (s : State) (n x : Nat), n < 208 → x < 4 →
    let q := (s.core n).xp x
    (∀ (p : Product) (els : List El), (s.core n).active (x / 2) = some p → p.ctx < 2 →
      let wgt := decide (x % 2 = 1)
      let v := if wgt then p.wview else p.aview
      let r := s.stageRegion n p.ctx
      let a := r.1 + v.elem + q.pos
      let u := s.landBlock n p.idx a
      let hdr := u.readMem (.stage n) a 32
      let h := parseHdr hdr
      v.packed = true → q.fetching = none → q.first + q.elems.length < p.needed wgt →
      (wgt = true → p.phase = .queued ∨ p.phase = .loading) → v.elem + q.pos + 32 ≤ r.2 →
      (hdrFits hdr = true → v.elem + q.pos + 32 + h.packed ≤ r.2) → u.stageReadWaits n p.idx [(a, 32 + h.packed)] = false →
      ((h.fmt = v.fmt ∧ hdrFits hdr = true ∧ h.mode = 1) → q.cache.contains (h.slot, h.gen) = true) →
      (∀ taken, u.blockResult n a v.fmt ((u.tableImage h.slot h.gen).getD []) = (none, els) →
        Gives (.expanderBlock n x ⟨false, taken⟩) s fun t =>
          t.core n = ((u.core n).modXp x fun y => { y with pos := y.pos + blockSize h.packed, elems := y.elems ++ els }).setProduct
            (x / 2) (if wgt then { p with phase := .loading } else p) ∧
          OnlyCore u t n [Reg.mxXpq n x]) ∧
      ∀ st, u.blockResult n a v.fmt ((u.tableImage h.slot h.gen).getD []) = (some st, els) →
        Gives (.expanderBlock n x ⟨false, 0⟩) s fun t =>
          (∀ y ∈ (t.core n).engine (x / 2), y.idx ≠ p.idx) ∧
          (∀ k ∈ p.entries, Sparse.get false (t.core n).accPoison ((s.accRegion n p.ctx).1 + k) = true) ∧
          (t.core n).acc = (s.core n).acc ∧ (t.ctx n p.ctx).state = .halted ∧ bit (t.reg (Reg.mxXpfault n)) 0 = true ∧
          (bit (s.reg (Reg.mxXpfault n)) 0 = false →
            bits (t.reg (Reg.mxXpfault n)) 1 2 = x ∧ bits (t.reg (Reg.mxXpfault n)) 8 8 = st ∧ t.reg (Reg.mxXppos n) = q.pos % 2 ^ 48)) ∧
    ∀ slot gen image, q.fetching = some (slot, gen) → s.tableImage slot gen = some image →
      Gives (.tableFetchDone n x) s fun t =>
        t.core n = (s.core n).modXp x (fun y => { y with
          fetching := none, cache := (y.cache ++ [(slot, gen)]).drop (y.cache.length + 1 - 4) }) ∧ OnlyCore s t n []

/-! Transfers and memory. -/

/-- DIN_COPY, DOUT_COPY and DRAIN, when their slot waits, no DIN or DRAIN in flight will write their descriptor, and their checks find
nothing, put one transfer behind those in flight on the core, with the descriptor as it stood (R139, R149, R181 to R185), and
move no byte. A COPY of a far space besides makes its first requests, as far as its port holds fewer than 1,024 (R190). Nothing
else changes. -/
def Obligations.TransfersEnterFlight : Prop :=
  ∀ (s : State) (n x : Nat) (b : OpenBundle) (w : Word64) (rest : List (Nat × Word64)), n < 208 → x < 2 →
    let v := w.toNat
    let c := s.ctx n x
    let a := descAddr b v
    let size := (s.stageRegion n x).2
    let becomes (t : State) (xfers : List Xfer) : Prop :=
      t.core n = { s.core n with xfers := xfers, nextXfer := (s.core n).nextXfer + 1, ctx0 := (t.core n).ctx0,
                                 ctx1 := (t.core n).ctx1 } ∧ SlotGone s t n x b rest c.sregs
    let enters (i : Instr) (kind : XKind) : Prop := Gives i s fun t =>
      let u := s.newXfer n x b v kind a
      let p := u.space - 4
      let reqs := Sparse.get [] s.farReqs p
      let units := (unitsOf (s.xferExt n u)).take (1024 - reqs.length)
      (u.space < 4 ∨ kind = .drain → becomes t ((s.core n).xfers ++ [u]) ∧ OnlyCore s t n []) ∧
      (4 ≤ u.space → kind ≠ .drain →
        becomes t (((s.core n).xfers ++ [u]).map fun y =>
          if y.idx = u.idx then { y with farNext := y.farNext + units.length } else y) ∧
        Sparse.get [] t.farReqs p = reqs ++ (units.map fun k =>
          { addr := 64 * k, write := kind ≠ .din, owner := .xfer n u.idx, deadline := s.now + 100000 }) ∧
        (∀ j, j ≠ p → Sparse.get [] t.farReqs j = Sparse.get [] s.farReqs j) ∧
        t = { s with cores := t.cores, regs := t.regs, farReqs := t.farReqs } ∧
        (∀ m, m ≠ n → t.core m = s.core m) ∧ RegsKept s t [Reg.farOutst p])
    s.descReady n x b v = true → a % 32 = 0 → a + 32 ≤ size →
    let u (kind : XKind) := s.newXfer n x b v kind a
    (SlotWaits s n x 1 1 b w rest → s.copyFaults c.act c.windowed size (u .din).space true (u .din).desc = [] →
      enters (.dinCopy n ⟨x, false⟩) .din) ∧
    (SlotWaits s n x 2 1 b w rest → s.copyFaults c.act c.windowed size (u .dout).space false (u .dout).desc = [] →
      enters (.doutCopy n ⟨x, false⟩) .dout) ∧
    (SlotWaits s n x 2 2 b w rest →
      drainFaults (u .drain).desc v (s.accRegion n x).2 (s.rangeOk c.act c.windowed size (u .drain).space true)
        (s.rangeOk c.act c.windowed size 0 true) = [] → enters (.drain n ⟨x, false⟩) .drain)

/-- TRANSFER_DONE of a COPY neither to nor from a copy queue nor a far port, once the scoreboard lets its bytes move and its
die-buffer reads met no error that cannot be corrected, takes the transfer out of flight; with one descriptor each destination row
holds the source row's bytes as they stood, when the destination rows do not overlap one another, every other byte is kept, and a
marked source puts NUMERIC_POISON among its bundle's conditions (R139, R149, R182, R187). Of a DRAIN that has been converted and
whose far requests are answered, and of a copy-queue DOUT whose message has been taken, it takes the transfer out of flight and moves
no byte. Nothing else of the core changes but what the transfer's end lets go on. -/
def Obligations.CopyMovesItsRows : Prop :=
  ∀ (s : State) (n x fixed : Nat) (u : Xfer), n < 208 → x < 2 → MemoriesCanonical s →
    (s.ctxXfers n x).find? (fun t => t.idx = u.idx) = some u →
    let done (P : State → Prop) : Prop := Gives (.transferDone n x u.idx ⟨fixed, false⟩ []) s fun t => XferLeft s t n u.idx ∧ P t
    let rows := s.copyRows n u u.desc
    let dst := spaceOf n (if u.kind = .din then u.desc.localSpace else u.space)
    let idle (t : State) : Prop :=
      t.core n = { s.core n with xfers := (t.core n).xfers, progressAt := s.now } ∧ (∀ m, m ≠ n → t.core m = s.core m) ∧
        BytesKept s t ∧ RegsKept s t (Reg.memDb (coreDie n) :: trafficRegs)
    (u.kind ≠ .drain → u.space < 3 → s.xferReady n u = true → done fun t => u.chain = 0 →
      RowsStand t dst (rows.map (·.1)) ∧ BytesKeptOutside s t dst (rows.map fun r => (r.1.1, r.1.2.length)) ∧
      CondsNoted s t n x ((s.ctx n x).queue.isSome && rows.any fun r => decide (r.2 ≠ [])) 0x20 (recTag x u.off u.tag) ∧
      t.core n = { s.core n with stage := (t.core n).stage, stagePoison := (t.core n).stagePoison
                                 packEnds := (t.core n).packEnds, xfers := (t.core n).xfers, progressAt := s.now
                                 ctx0 := (t.core n).ctx0, ctx1 := (t.core n).ctx1 } ∧
      (∀ m, m ≠ n → t.core m = s.core m) ∧ RegsKept s t (Reg.memDb (coreDie n) :: trafficRegs) ∧
      t = { s with cores := t.cores, regs := t.regs, near := t.near, nearPoison := t.nearPoison, die := t.die
                   diePoison := t.diePoison, farReqs := t.farReqs }) ∧
    (u.kind = .drain → u.converted = true → s.farSettled n u = true → done idle) ∧
    (u.kind = .dout → u.space = 3 → s.xferReady n u = true → u.sent = true → s.copyPending u.queue u.off = false → done idle)

/-- DRAIN_CONVERT of the oldest DRAIN of a context that has not been converted, once the products in flight have written its entries and
the scoreboard lets it write, converts its tile: the transfer is marked as converted, the accumulator and its marks are kept
(R92, R149, R150). A tile of finite values drained unpacked to a plain format of whole bytes, with neither row statistics nor an act's
statistics slot, stands in its tensor's rows (R185). DIN_RECEIVE of a waiting DIN whose queue has a message, when no earlier DIN waits
for the queue, takes the DIN out of flight, and its message counts as consumed (R239, R240); a message of the right length that may be
read fills the DIN's rows, where they do not overlap. Products in flight stay. -/
def Obligations.DrainsConvertAndReceivesConsume : Prop :=
  ∀ (s : State) (n x : Nat) (u : Xfer), n < 208 → x < 2 → MemoriesCanonical s →
    (∀ square, s.nextDrain n x = some u →
      s.accBusy n u.idx ((List.range (u.desc.tileRows * u.desc.tileCols)).map fun i =>
        u.abase + bits u.slot.toNat 26 19 + i) = false →
      s.stageWriteWaits n u.idx (s.xferStageWrites n u) = false → s.extWaits n u = false →
      Gives (.drainConvert n x ⟨square, false⟩) s fun t =>
        let v := u.slot.toNat
        let f := drainFmt v
        let d := u.desc
        let tile := (s.tileRows n u).1
        let base := if u.space = 2 then u.sbase else 0
        (t.core n).acc = (s.core n).acc ∧ (t.core n).accPoison = (s.core n).accPoison ∧
        ((t.core n).xfers.map fun y => (y.idx, y.converted)) =
          ((s.core n).xfers.map fun y => (y.idx, y.converted || decide (y.idx = u.idx))) ∧
        (t.core n).fwd = (s.core n).fwd ∧ (t.core n).bwd = (s.core n).bwd ∧
        (u.space < 3 → bit v 8 = false → bit v 9 = false → fmtG f = 0 → 8 ≤ fmtBits f → d.col0 + d.tileCols ≤ d.len →
          s.statEntry u.act (bits u.sc.toNat 32 12) = none → (tile.all fun r => r.all F32.isFin) = true →
          RowsStand t (spaceOf n u.space) ((indexed 0 (drainRows d f u.mode square tile)).map fun o =>
            (base + d.base + (d.row0 + o.1) * elemPitch f d.len + d.col0 * fmtBits f / 8, packElems f o.2.codes)))) ∧
    ((s.ctxXfers n x).find? (fun t => t.idx = u.idx && t.kind = .din && t.space = 3) = some u → s.msgReady u.queue = true →
      s.xferReady n u = true →
      (∀ y ∈ (s.core n).xfers, y.kind = .din → y.space = 3 → y.queue = u.queue → u.idx ≤ y.idx) →
      ∀ failed, Gives (.dinReceive n x u.idx failed) s fun t =>
        let m := s.readMsg u.queue
        let size := u.desc.rows * u.desc.rowBytes
        (t.core n).xfers.map (·.idx) = ((s.core n).xfers.map (·.idx)).filter (· ≠ u.idx) ∧ (t.core n).acc = (s.core n).acc ∧
        (t.core n).fwd = (s.core n).fwd ∧ (t.core n).bwd = (s.core n).bwd ∧
        ((s.ctx n x).queue.isSome = true →
          ∃ h ∈ (t.queue u.queue).held, h.count = s.nextMsg u.queue ∧ h.consumed.isSome = true ∧ h.consumer = (s.ctx n x).queue) ∧
        (m.2.2.1 = false → m.2.1 = size → (m.2.2.2 = .near → u.checked = true → s.nearWindow u.act m.1 size false = true) →
          RowsStand t (spaceOf n u.desc.localSpace) ((indexed 0 u.desc.localRows).map fun r =>
            ((if u.desc.lsp then 0 else u.sbase) + r.2.1, s.readMem m.2.2.2 (m.1 + r.1 * u.desc.rowBytes) u.desc.rowBytes))))

/-- NEAR_REQUEST of 1 to 1,024 bytes in one interleave unit of a stack in service that holds fewer than 512, meeting no error, counts
in OUTSTANDING and PEAK of its stack and changes nothing else; PATROL_SCRUB of a stack in service whose turn has come sets the time of
its last scrub alone (R176, R178). A codeword with one wrong symbol, on a DRAM die with fewer than 4,096 within the last second, adds
one to CE_COUNT of the stack and changes no byte and no mark; one that cannot be corrected counts in UE_COUNT, and its unit is marked
(R177, R187; here no ring lies in near memory, where a later event could overwrite it). FAR_COMPLETION on time takes its request off
the port, whose other requests stay in their order, and changes no byte (R190); FAR_REQUEST_TIMEOUT past the deadline counts the
request in FAR.ERR and, for a write, marks the far unit whose content is unknown (R187, R190). An uncorrectable error in a
buffer that LD, LDA, LDX or GATHER, PRODUCT, DIN_COPY, DOUT_COPY, DRAIN, WEIGHT_LOAD, a DRAIN's conversion or a COPY reads fences the
core: it is FENCED with cause 2 and the present stamp, its vector registers are as they were, and neither of its contexts may issue
(R179, R338). -/
def Obligations.MemoryRequestsEndCorrectedOrFence : Prop :=
  (∀ (s : State) (a len st : Nat), st < 32 →
     (1 ≤ len → len ≤ 1024 → a / 4096 = (a + len - 1) / 4096 → a + len ≤ nearSize → s.nearAbsent a len = false →
       s.stackUp (s.stackOf a) = true → s.stackOf a = st → s.fld (Reg.memStk1 st) Fld.memStk1Outstanding < 512 →
       let held := s.fld (Reg.memStk1 st) Fld.memStk1Outstanding + 1
       let counts (t : State) : Prop := t.fld (Reg.memStk1 st) Fld.memStk1Outstanding = held ∧
         t.fld (Reg.memStk1 st) Fld.memStk1Peak = max held (s.fld (Reg.memStk1 st) Fld.memStk1Peak)
       (∀ write, Gives (.nearRequest a len write []) s fun t => counts t ∧ OnlyRegs s t [Reg.memStk1 st]) ∧
       ∀ unit word, a / 64 ≤ unit → unit ≤ (a + len - 1) / 64 →
         (∀ d, d < 20 → countSum (lastSecond s.now (Sparse.get [] s.dieErrs (32 * st + d))) + 1 < 4096 →
           s.fld (Reg.memStk0 st) Fld.memStk0CeCount + 1 < 2 ^ Fld.memStk0CeCount.w →
           Gives (.nearRequest a len false [⟨unit, word, [d]⟩]) s fun t => counts t ∧
             t.fld (Reg.memStk0 st) Fld.memStk0CeCount = s.fld (Reg.memStk0 st) Fld.memStk0CeCount + 1 ∧
             t = { s with regs := t.regs, dieErrs := t.dieErrs } ∧ RegsKept s t [Reg.memStk0 st, Reg.memStk1 st]) ∧
         ∀ dies, s.correctable st ((dies.filter (· < 20)).eraseDups) = false →
           countSum (lastSecond s.now (Sparse.get [] s.stackReads st)) + 1 < 256 → (∀ y, y < 9 → ∀ q ∈ s.defaultEvq y, s.qSpace q = .host) →
           Gives (.nearRequest a len false [⟨unit, word, dies⟩]) s fun t => counts t ∧
             t.fld (Reg.memStk0 st) Fld.memStk0UeCount =
               min (s.fld (Reg.memStk0 st) Fld.memStk0UeCount + 1) (2 ^ Fld.memStk0UeCount.w - 1) ∧
             t.marked .near (64 * unit) 64 = true ∧ t.flag Reg.memUe Fld.memUeValid = true) ∧
     (s.fld Reg.memCtl Fld.memCtlScrubHours ≠ 0 → s.stackUp st = true →
       Sparse.get 0 s.scrubbed st + s.fld Reg.memCtl Fld.memCtlScrubHours * 3600000000000 ≤ s.now →
       ∀ written, Gives (.patrolScrub st [] written) s fun t =>
         t = { s with scrubbed := t.scrubbed } ∧ Sparse.get 0 t.scrubbed st = s.now ∧
           ∀ y, y ≠ st → Sparse.get 0 t.scrubbed y = Sparse.get 0 s.scrubbed y)) ∧
  (∀ (s : State) (p i : Nat) (r : FarReq), p < 4 → (Sparse.get [] s.farReqs p)[i]? = some r →
     let gone (t : State) : Prop := ∃ new, Sparse.get [] t.farReqs p = (Sparse.get [] s.farReqs p).eraseIdx i ++ new
     (s.now ≤ r.deadline → Gives (.farCompletion p i false) s fun t => gone t ∧ BytesKept s t ∧ t.farPoison = s.farPoison) ∧
     (r.deadline < s.now → Gives (.farRequestTimeout p i) s fun t => gone t ∧
       (r.write = true → t.marked (.far p) r.addr 64 = true) ∧
       t.fld (Reg.farErr p) Fld.farErrTimeoutCount =
         min (s.fld (Reg.farErr p) Fld.farErrTimeoutCount + 1) (2 ^ Fld.farErrTimeoutCount.w - 1))) ∧
  ∀ (s : State) (n x : Nat), n < 208 → x < 2 → s.coreState n ≠ 0 → s.coreState n ≠ 4 →
    let fenced (i : Instr) : Prop := Gives i s fun t =>
      t.coreState n = 4 ∧ t.fld (Reg.netCore n) Fld.netCoreCause = 2 ∧ (t.core n).fenceAt = some s.now ∧
        (t.core n).vregs = (s.core n).vregs ∧ t.mayIssue n 0 = false ∧ t.mayIssue n 1 = false
    (∀ (b : OpenBundle) (w : Word64) (rest : List (Nat × Word64)),
      (SlotWaits s n x 5 0x2C b w rest → s.accReady n x b w.toNat = true → fenced (.lda n x true)) ∧
      (SlotWaits s n x 5 0x30 b w rest → s.readReady n x (s.ldAccs n x b w.toNat) = true → fenced (.ld n x true)) ∧
      (SlotWaits s n x 5 0x32 b w rest → s.readReady n x (s.packedAccs n x b w.toNat) = true → fenced (.ldx n x true)) ∧
      (SlotWaits s n x 5 0x34 b w rest → s.readReady n x (s.indexAccs n x b w.toNat) = true → fenced (.gather n x true)) ∧
      (∀ e, e < 2 → SlotWaits s n x (3 + e) 1 b w rest → State.productReady n x s b w.toNat = true →
        fenced (.product n ⟨x, true⟩ e)) ∧
      (s.descReady n x b w.toNat = true →
        (SlotWaits s n x 1 1 b w rest → fenced (.dinCopy n ⟨x, true⟩)) ∧
        (SlotWaits s n x 2 1 b w rest → fenced (.doutCopy n ⟨x, true⟩)) ∧
        (SlotWaits s n x 2 2 b w rest → fenced (.drain n ⟨x, true⟩)))) ∧
    (∀ e p, e < 2 → (s.core n).active e = some p → (p.phase = .queued ∨ p.phase = .loading) →
      s.portReady n e p true (p.needed true) = true → fenced (.weightLoad n ⟨e, true⟩)) ∧
    ∀ u : Xfer,
      (∀ square, s.nextDrain n x = some u →
        s.accBusy n u.idx ((List.range (u.desc.tileRows * u.desc.tileCols)).map fun i =>
          u.abase + bits u.slot.toNat 26 19 + i) = false →
        s.stageWriteWaits n u.idx (s.xferStageWrites n u) = false → s.extWaits n u = false →
        fenced (.drainConvert n x ⟨square, true⟩)) ∧
      ((s.ctxXfers n x).find? (fun t => t.idx = u.idx) = some u → u.kind ≠ .drain → s.xferReady n u = true →
        fenced (.transferDone n x u.idx ⟨0, true⟩ []))

/-! The Show Clock, cues and acts. -/

/-- REF_PPS_EDGE under SOURCE 1 and PTP_COMMIT of a pair not more than 1 s old under SOURCE 2 show the phase error, slew the count
by its opposite, and never step it once TIME_SET reads 1 or start-up has ended; before that, an edge takes the time of day of the
last write at least 1 µs old, or the first pair sets the count (R194 to R196). Sixteen edges in a row within ±2 ns, or three pairs
within ±100 ns of one another, lock the clock, and locking clears HOLDOVER (R194, R197). REFERENCE_LOSS sets HOLDOVER and clears
LOCKED while the count goes on (R197). SLEW_COMPLETE ends the slew once its time has passed at 100 ppm, and changes nothing before
(R195). Nothing else changes, but for the event of the loss. -/
def Obligations.ClockReferencesDisciplineTheCount : Prop :=
  ∀ (s : State) (err : Int) (tick : Nat), s.alive = true →
    let c := s.clock
    let off : Int := (tick : Int) - (s.reg Reg.sckPtpNs : Int)
    let shows (t : State) (e : Int) (locked : Prop) : Prop :=
      t.fld Reg.sckError Fld.sckErrorPs = ofSigned 32 e ∧ (t.flag Reg.sckStatus Fld.sckStatusSlewing = true ↔ e ≠ 0) ∧
        (t.flag Reg.sckStatus Fld.sckStatusLocked = true ↔ locked) ∧
        (locked → t.flag Reg.sckStatus Fld.sckStatusHoldover = false) ∧
        t = { s with now := t.now, clock := t.clock, regs := t.regs } ∧ RegsKept s t [Reg.sckError, Reg.sckStatus]
    let timely := c.todArmed.filter fun w => decide (w.2 + 1000 ≤ s.now)
    let later := c.todArmed.filter fun w => !decide (w.2 + 1000 ≤ s.now)
    let good := if -2000 ≤ err ∧ err ≤ 2000 then min 16 (c.ppsGood + 1) else 0
    let pairs (old : List Int) (o : Int) : List Int := (old ++ [o]).drop (old.length - 2)
    (s.timeSource = 1 → (timely = [] ∨ s.mayStep = false) → Gives (.refPpsEdge err) s fun t =>
      t.now = s.now ∧ t.clock = { c with ppsGood := good, todArmed := later, slew := -err, slewFrom := s.now } ∧
        shows t err (good = 16)) ∧
    (∀ sec at_ : Nat, s.timeSource = 1 → timely.getLast? = some (sec, at_) → s.mayStep = true →
      Gives (.refPpsEdge err) s fun t => t.now = sec * 1000000000 % 2 ^ 64 ∧
        t.clock = { c with ppsGood := good, todArmed := later, slew := -err, slewFrom := t.now,
                           stepped := c.stepped + (t.now : Int) - s.now } ∧
        t.flag Reg.sckStatus Fld.sckStatusTimeSet = true ∧ shows t err (good = 16)) ∧
    (s.timeSource = 2 → s.now ≤ tick + 1000000000 → s.mayStep = false → Gives (.ptpCommit tick) s fun t =>
      t.now = s.now ∧ t.clock = { c with pairs := pairs c.pairs off, lastPair := s.now, slew := -(off * 1000), slewFrom := s.now } ∧
        shows t (off * 1000) (pairsAgree (pairs c.pairs off) = true)) ∧
    (s.timeSource = 2 → s.now ≤ tick + 1000000000 → s.mayStep = true → Gives (.ptpCommit tick) s fun t =>
      t.now = ((s.now : Int) - off).toNat % 2 ^ 64 ∧
        t.clock = { c with pairs := [0], lastPair := t.now, slew := 0, slewFrom := t.now,
                           stepped := c.stepped + (t.now : Int) - s.now } ∧
        t.flag Reg.sckStatus Fld.sckStatusTimeSet = true ∧ shows t 0 False) ∧
    (s.timeSource = 2 → tick + 1000000000 < s.now → Leaves (.ptpCommit tick) s s) ∧
    (s.referenceGone = true → s.flag Reg.sckStatus Fld.sckStatusHoldover = false → Gives .referenceLoss s fun t =>
      t.flag Reg.sckStatus Fld.sckStatusHoldover = true ∧ t.flag Reg.sckStatus Fld.sckStatusLocked = false ∧
        t.now = s.now ∧ t.clock = { c with ppsGood := 0, pairs := [], transfers := 0 } ∧ t.cores = s.cores) ∧
    (c.slewFrom + 10 * c.slew.natAbs ≤ s.now → Gives .slewComplete s fun t =>
      t.flag Reg.sckStatus Fld.sckStatusSlewing = false ∧
        t = { s with clock := { c with slew := 0 }, regs := t.regs } ∧ RegsKept s t [Reg.sckStatus]) ∧
    (s.now < c.slewFrom + 10 * c.slew.natAbs → Leaves .slewComplete s s)

/-- CUE_WRITE of word 0 to 3 of an entry by its own act sets FIRE_AT, ACTION and ENABLE, PERIOD or ARG; FIRED clears with the first
two; PERIOD 1 to 999 and ACTION above 4 are ignored; the values in force in the present tick stay those before the write (R202). Another
act's write is denied. CUE_ENTRY of a cue queue applies its entry as one write and completes it, or completes it with ACCESS_DENIED
and leaves the entry alone; the consumer count moves on by one (R241). -/
def Obligations.CueWritesTakeEffectNextTick : Prop :=
  ∀ (s : State) (fn e w v q : Nat), fn < 9 → e < 512 → q < 65536 →
    let o := s.cueInForce e
    let frame (t : State) (k : Nat) : Prop :=
      t = { s with regs := t.regs, cueOld := t.cueOld } ∧ RegsKept s t [k, Reg.cueCtl e] ∧
        t.cueInForce e = { o with wrote := w :: o.wrote } ∧ ∀ k, k ≠ e → t.cueInForce k = s.cueInForce k
    (s.hostOk fn = true → (fn = 0 → s.started = true) → s.cueAct e = fn →
      (w = 0 → Gives (.cueWrite fn e w v) s fun t => t.reg (Reg.cueFireAt e) = v % 2 ^ 64 ∧
        t.flag (Reg.cueCtl e) Fld.cueCtlFired = false ∧ frame t (Reg.cueFireAt e)) ∧
      (w = 1 → bits v 0 3 ≤ 4 → Gives (.cueWrite fn e w v) s fun t => t.fld (Reg.cueCtl e) Fld.cueCtlAction = bits v 0 3 ∧
        t.fld (Reg.cueCtl e) Fld.cueCtlEnable = bits v 3 1 ∧ t.flag (Reg.cueCtl e) Fld.cueCtlFired = false ∧
        t.cueAct e = fn ∧ frame t (Reg.cueCtl e)) ∧
      (w = 2 → (v = 0 ∨ 1000 ≤ v) → Gives (.cueWrite fn e w v) s fun t => t.reg (Reg.cuePeriod e) = v % 2 ^ 64 ∧
        frame t (Reg.cuePeriod e) ∧ t.reg (Reg.cueCtl e) = s.reg (Reg.cueCtl e)) ∧
      (w = 3 → Gives (.cueWrite fn e w v) s fun t => t.reg (Reg.cueArg e) = v % 2 ^ 64 ∧ frame t (Reg.cueArg e) ∧
        t.reg (Reg.cueCtl e) = s.reg (Reg.cueCtl e)) ∧
      ((w = 1 ∧ 4 < bits v 0 3) ∨ (w = 2 ∧ 1 ≤ v ∧ v ≤ 999) → Leaves (.cueWrite fn e w v) s s)) ∧
    (s.hostOk fn = true → (fn = 0 → s.started = true) → s.cueAct e ≠ fn →
      Leaves (.cueWrite fn e w v) s (s.deniedEvent fn)) ∧
    (s.alive = true → s.qCreated q = true → s.qType q = 5 → s.qRunning q = true → (s.queue q).control = none →
      0 < s.qUsed q →
      let bs := s.readEntry q (s.qCons q)
      let k := fieldAt bs 0 2 % 512
      let ends (t : State) (status : Nat) : Prop := t.qCons q = (s.qCons q + 1) % 2 ^ 32 ∧
        t.fld (Reg.qmQState q) Fld.qmQStateLastStatus = status
      (s.cueAct k = s.qAct q → Gives (.cueEntry q) s fun t => ends t 0 ∧
        t.reg (Reg.cueFireAt k) = fieldAt bs 8 8 ∧ t.reg (Reg.cueArg k) = fieldAt bs 24 8 ∧
        (bits (fieldAt bs 2 2) 0 3 ≤ 4 → t.fld (Reg.cueCtl k) Fld.cueCtlAction = bits (fieldAt bs 2 2) 0 3 ∧
          t.fld (Reg.cueCtl k) Fld.cueCtlEnable = bits (fieldAt bs 2 2) 3 1) ∧
        (fieldAt bs 16 8 = 0 ∨ 1000 ≤ fieldAt bs 16 8 → t.reg (Reg.cuePeriod k) = fieldAt bs 16 8) ∧
        t.flag (Reg.cueCtl k) Fld.cueCtlFired = false ∧
        t = { (s.cueEntryWrite k bs).complete q (s.qCons q) 0 false with fuse := s.fuse, pending := s.pending }) ∧
      (s.cueAct k ≠ s.qAct q → Gives (.cueEntry q) s fun t => ends t 3 ∧ (∀ j, t.cueInForce j = s.cueInForce j) ∧
        t = { s.complete q (s.qCons q) 3 false with fuse := s.fuse, pending := s.pending }))

/-- CUE_FIRE of an armed entry that has come to its time, before any other that is due, and that no write of the present tick has
touched: FIRE_COUNT counts it and FIRED sets; without a period ENABLE clears, with one the entry is armed for the first time of its
period above the count (R201, R202). The CUEWAITs on it that issued at or before its firing time end, and no other (R203). With
ACTION NONE and no firing skipped nothing else changes but the progress of the cores whose wait has ended. -/
def Obligations.CueFiresAndReleasesItsWaits : Prop :=
  ∀ (s : State) (e : Nat), e < 512 → s.alive = true → s.cueDue e = true → s.cueFirst e = true →
    let o := s.cueInForce e
    o.wrote = [] →
    Gives (.cueFire e) s fun t =>
      t.fld (Reg.cueCtl e) Fld.cueCtlFireCount =
        (s.fld (Reg.cueCtl e) Fld.cueCtlFireCount + 1) % 2 ^ Fld.cueCtlFireCount.w ∧
      t.flag (Reg.cueCtl e) Fld.cueCtlFired = true ∧
      (t.flag (Reg.cueCtl e) Fld.cueCtlEnable = true ↔ o.period ≠ 0) ∧
      t.reg (Reg.cueFireAt e) =
        (if o.period = 0 then o.fireAt else o.fireAt + ((s.now - o.fireAt) / o.period + 1) * o.period) % 2 ^ 64 ∧
      t.reg (Reg.cueArg e) = s.reg (Reg.cueArg e) ∧ t.reg (Reg.cuePeriod e) = s.reg (Reg.cuePeriod e) ∧ t.now = s.now ∧
      (∀ n x k st, n < 208 → x < 2 →
        ((s.ctx n x).cueWait = none → (t.ctx n x).cueWait = none) ∧
        ((s.ctx n x).cueWait = some (k, st) →
          (t.ctx n x).cueWait = if k = e ∧ st ≤ o.fireAt then none else some (k, st))) ∧
      (o.action = 0 → (o.period = 0 ∨ s.now < o.fireAt + o.period) →
        t = { s with regs := t.regs, cores := t.cores } ∧ RegsKept s t [Reg.cueCtl e, Reg.cueFireAt e] ∧
        ∀ n, t.core n = { s.core n with ctx0 := (t.core n).ctx0, ctx1 := (t.core n).ctx1, progressAt := (t.core n).progressAt } ∧
          ∀ x, x < 2 → t.ctx n x = { s.ctx n x with cueWait := (t.ctx n x).cueWait })

/-- HEADLINE_REQUEST by act 0 for act 0 or an enabled act records the request, pending while it is not the act in force; HEADLINE_CHANGE, once no
stream of either act is bound, puts it in force and shows every act's role (R204). SHARE_WINDOW_END stores the share of a sideshow act,
marks and reports one below MIN_SHARE whose stream was ready throughout (R214, R215), binds context 1 of a core to a logical core that
may take it (R205, R231), and does so for every act and core that it names, in order. -/
def Obligations.HeadlineActAndSharesChange : Prop :=
  ∀ (s : State) (v : Nat) (h : ShareHeld) (b : Rebind) (hs : List ShareHeld) (bs : List Rebind),
    (s.hostOk 0 = true → s.started = true → bits v 0 4 < 9 → s.actEnabled (bits v 0 4) = true →
      Gives (.headlineRequest v) s fun t =>
        t.fld Reg.sckHeadline Fld.sckHeadlineRequested = bits v 0 4 ∧ t.headline = s.headline ∧
          (t.flag Reg.sckHeadline Fld.sckHeadlinePending = true ↔ bits v 0 4 ≠ s.headline) ∧
          OnlyRegs s t [Reg.sckHeadline]) ∧
    (s.alive = true → s.flag Reg.sckHeadline Fld.sckHeadlinePending = true → s.actBound s.headline = false →
      s.actBound (s.fld Reg.sckHeadline Fld.sckHeadlineRequested) = false →
      Gives .headlineChange s fun t => t.headline = s.fld Reg.sckHeadline Fld.sckHeadlineRequested ∧
        t.flag Reg.sckHeadline Fld.sckHeadlinePending = false ∧
        ∀ a, a < 9 → t.fld (Reg.sckAct a) Fld.sckActRole =
          if a = 0 ∨ s.actEnabled a = false then 0 else if a = t.headline then 1 else 2) ∧
    (s.alive = true → s.isSideshow h.act = true → h.act < 9 →
      let starved := h.ready && decide (h.share < s.fld (Reg.sckAct h.act) Fld.sckActMinShare)
      Gives (.shareWindowEnd [h] []) s fun t =>
        t.fld (Reg.sckShare h.act) Fld.sckShareLast = h.share % 2 ^ Fld.sckShareLast.w ∧
          t.flag (Reg.sckShare h.act) Fld.sckShareYielded = starved ∧
          (starved = false → OnlyRegs s t [Reg.sckShare h.act])) ∧
    (s.alive = true → b.core < 208 → b.queue < 65536 → s.mayRebind b.core b.queue = true →
      Gives (.shareWindowEnd [] [b]) s fun t =>
        (t.core b.core).sideHolder = some (s.qAct b.queue, s.qCore b.queue) ∧
          ∀ n, n ≠ b.core → (t.core n).sideHolder ≠ some (s.qAct b.queue, s.qCore b.queue)) ∧
    (s.alive = true → (∀ y ∈ hs, y.act < 9) → (∀ y ∈ bs, y.core < 208 ∧ y.queue < 65536) →
      Leaves (.shareWindowEnd hs bs) s (State.each bs (fun r u => u.rebind r) (State.each hs (fun y u => u.storeShare y) s)))

/-- BUBBLE_BEGIN opens a bubble on a headline core whose context 0 waits and whose engines, issue queues and sort unit are idle; BUBBLE_END
closes it when the wait has ended, and a stream of context 1 is pre-empted and counted (R206, R207). PREEMPT_ABANDON after PREEMPT_LIMIT
cycles drops the open bundle, the products and the queued vector and row work of context 1, keeps those of context 0, marks the
accumulator entries that the products would have written, and counts it; SIDESHOW_RESUME lets context 1 start again from its last
resume record, or from its first bundle (R207). SCRUB_COMPLETE leaves the sideshow's part of the stage buffer, of the accumulator and
of side memory reading zero, its vector, mask and ALPHA registers listing nothing, and nothing of the headline's part changed (R210).
Nothing else changes, but for the event that reports a delayed stream (R215). -/
def Obligations.BubblesPreemptAndScrub : Prop :=
  ∀ (s : State) (n : Nat), n < 208 → s.alive = true →
    let k := s.core n
    let c := s.ctx n 1
    (s.coreRuns n = true → s.headlineCore n = true → k.bubble = false → s.ctx0Waits n = true → k.fwd = [] → k.bwd = [] →
      k.vecq = [] → k.rowq = [] → k.sort.running = none →
      Leaves (.bubbleBegin n) s (s.setCore n { k with bubble := true, bubbleEnded := none })) ∧
    (k.bubble = true → s.ctx0Waits n = false → Gives (.bubbleEnd n) s fun t =>
      t.core n = { k with bubble := false, bubbleEnded := some s.now, ctx1 := t.ctx n 1 } ∧
        (c.queue = none → t.ctx n 1 = c ∧ RegsKept s t []) ∧
        (c.queue ≠ none → t.ctx n 1 = { c with state := if c.state = .halted then .halted else .preempted } ∧
          (s.fld (Reg.sckPreempt c.act) Fld.sckPreemptPreempts + 1 < 2 ^ 32 →
            t.fld (Reg.sckPreempt c.act) Fld.sckPreemptPreempts = s.fld (Reg.sckPreempt c.act) Fld.sckPreemptPreempts + 1)) ∧
        OnlyCore s t n [Reg.sckPreempt c.act]) ∧
    (∀ t0, k.bubbleEnded = some t0 → s.fld Reg.sckSsCtl Fld.sckSsCtlPreemptLimit * 625 ≤ (s.now - t0) * 1000 →
      (s.ctxProducts n 1 ≠ [] ∨ s.ctxOps n 1 ≠ [] ∨ ∃ b, c.cur = some b ∧ ∃ p ∈ b.todo, 3 ≤ p.1 ∧ p.1 ≤ 6) →
      Gives (.preemptAbandon n) s fun t =>
        (t.core n).abandoned = true ∧ (t.core n).bubbleEnded = none ∧ t.ctx n 1 = { c with cur := none } ∧
          t.ctx n 0 = s.ctx n 0 ∧ t.ctxProducts n 1 = [] ∧ t.ctxProducts n 0 = s.ctxProducts n 0 ∧
          (t.core n).vecq = k.vecq.filter (fun u => u.ctx ≠ 1) ∧ (t.core n).rowq = k.rowq.filter (fun u => u.ctx ≠ 1) ∧
          (t.core n).xfers = k.xfers ∧ (t.core n).acc = k.acc ∧ (t.core n).vregs = k.vregs ∧ (t.core n).side = k.side ∧
          (∀ p ∈ s.ctxProducts n 1, ∀ i ∈ p.entries,
            Sparse.get false (t.core n).accPoison ((s.accRegion n 1).1 + i) = true) ∧
          (s.fld (Reg.sckPreempt c.act) Fld.sckPreemptAborts + 1 < 2 ^ 32 →
            t.fld (Reg.sckPreempt c.act) Fld.sckPreemptAborts = s.fld (Reg.sckPreempt c.act) Fld.sckPreemptAborts + 1) ∧
          BytesKept s t ∧ OnlyCore s t n (Reg.sckPreempt c.act :: (List.range 4).map (Reg.mxXpq n))) ∧
    (k.abandoned = true → s.ctxXfers n 1 = [] →
      Gives (.sideshowResume n) s fun t => (t.core n).abandoned = false ∧ t.ctx n 0 = s.ctx n 0 ∧
        (t.ctx n 1).queue = c.queue ∧ (t.ctx n 1).wait = none ∧ (t.ctx n 1).cueWait = none ∧ (t.ctx n 1).sigs = [] ∧
        (∀ q r, c.queue = some q → (s.queue q).rec_ = some r →
          (t.ctx n 1).word = r.word ∧ (t.ctx n 1).off = r.off ∧ (t.ctx n 1).sregs = r.sregs ∧ (t.ctx n 1).preds = r.preds ∧
          (t.ctx n 1).loops = r.loops ∧ (t.ctx n 1).step = r.step ∧ (t.ctx n 1).state = .issuing) ∧
        (∀ q, c.queue = some q → (s.queue q).rec_ = none →
          (t.ctx n 1).word = 0 ∧ (t.ctx n 1).loops = [] ∧ (t.ctx n 1).state = .issuing) ∧
        (∀ m, m ≠ n → t.core m = s.core m) ∧ BytesKept s t) ∧
    (∀ a, k.scrubbing = some a → k.bubble = true ∨ s.headlineCore n = false → c.queue = none → s.ctxXfers n 1 = [] →
      s.ctxProducts n 1 = [] → s.ctxOps n 1 = [] → MemoriesCanonical s → TablesCanonical s →
      Gives (.scrubComplete n) s fun t =>
        (∀ i, i < stageSize → t.readMem (.stage n) i 1 =
          if stageSize - k.sbSideshow * 2 ^ 16 ≤ i then [0] else s.readMem (.stage n) i 1) ∧
        (∀ i, i < 524288 → Sparse.get 0 (t.core n).acc i =
          if 524288 - 4096 * k.accSs ≤ i then 0 else Sparse.get 0 k.acc i) ∧
        (t.core n).side = Sparse.clear k.side (16384 - 1024 * k.sideSs) 16384 ∧
        (t.core n).vregs = Sparse.clear k.vregs 64 128 ∧ (t.core n).masks = Sparse.clear k.masks 8 16 ∧
        (t.core n).alpha = Sparse.clear k.alpha 128 256 ∧
        (t.core n).scrubbing = none ∧ t.ctx n 0 = s.ctx n 0 ∧ (∀ m, m ≠ n → t.core m = s.core m) ∧
        (s.readyFor n 1 = [] → OnlyCore s t n []))

/-! The host port, queues and streams. -/

/-- The controls of a selected queue that is not busy: CREATE from DISABLED gives STOPPED with both counts zero, START gives RUNNING or, under
HOLD_CUE, HELD, STOP gives STOPPED from HELD and begins to stop a running queue, RESET gives RESETTING and BUSY and holds the stream,
SKIP and RESUME give RUNNING from HALT_DECODE and HALT_EXEC, and DESTROY gives DISABLED from STOPPED; from any other state, and where a
check fails, the control is refused (R230, R234 to R236, Table 8.5). RESUME of act 0 is refused while its core stays fenced (R404), and
START on a lost module (the model's choice, log 156). No other queue changes its state. -/
def Obligations.QueueControlsMoveStates : Prop :=
  ∀ (s : State) (fn q : Nat), fn < 9 → s.selected fn = some q → s.hostOk fn = true → s.started = true →
    s.qBusy q = false →
    let st := s.qState q
    let refused (c : Instr) (status : Nat) : Prop := Leaves c s (s.refuseControl q status)
    let moves (c : Instr) (st' : Nat) (P : State → Prop) : Prop := Gives c s fun t =>
      t.qState q = st' ∧ (∀ r, r ≠ q → t.qState r = s.qState r) ∧ P t
    let busy (t : State) (ctl : Nat) : Prop := t.qBusy q = true ∧ (t.queue q).control = some ctl
    (st = 0 → s.createBad q = false → s.createDenied q = false → moves (.create fn) 1 fun t =>
      t.qCons q = 0 ∧ t.qProd q = 0 ∧ t.cores = s.cores ∧ (s.qType q ≠ 3 → t.queue q =
        { Queue.reset with recvSeq := if s.qType q = 4 then some 0 else none
                           arriving := (s.queue q).arriving.filter fun m => m.srcCoord = s.selfLogical })) ∧
    (st ≠ 0 ∨ s.createBad q = true → refused (.create fn) 2) ∧
    (st = 0 → s.createBad q = false → s.createDenied q = true → refused (.create fn) 3) ∧
    (st = 1 → s.phase ≠ 0xF → s.startRefusal q = none →
      moves (.start fn) (if s.qType q = 1 ∧ s.flag (Reg.qmQCfg q) Fld.qmQCfgHoldCue = true then 3 else 2) fun t =>
        t.cores = s.cores ∧ t.qCons q = s.qCons q) ∧
    (st = 4 → s.phase ≠ 0xF → s.startRefusal q = none → moves (.start fn) 2 fun t =>
      ∀ n x, (s.queue q).bound = some (n, x) → x < 2 →
        t.ctx n x = { s.ctx n x with state := if (s.ctx n x).state = .halted then .issuing else (s.ctx n x).state }) ∧
    (st = 1 ∨ st = 4 → s.phase ≠ 0xF → ∀ c, s.startRefusal q = some c → refused (.start fn) c) ∧
    ((st ≠ 1 ∧ st ≠ 4) ∨ s.phase = 0xF → refused (.start fn) 2) ∧
    (st = 3 → moves (.stop fn) 1 fun t => t.cores = s.cores) ∧
    (st = 2 → moves (.stop fn) 2 fun t => busy t 2 ∧ OnlyQueue s t q [Reg.qmQState q]) ∧
    (st ≠ 2 → st ≠ 3 → refused (.stop fn) 2) ∧
    (st ≠ 0 → moves (.reset fn) 7 fun t => busy t 3 ∧
      ((s.queue q).bound = none → t.cores = s.cores) ∧
      ∀ n x, (s.queue q).bound = some (n, x) → x < 2 → t.ctx n x = { s.ctx n x with
        wait := none, cueWait := none, bucketWait := none, state := .halted, reload := false }) ∧
    (st = 0 → refused (.reset fn) 2) ∧
    (st = 5 → s.qType q = 1 → moves (.skip fn) 2 fun t =>
      ∀ n x, (s.queue q).bound = some (n, x) → x < 2 → (t.ctx n x).off = ((s.ctx n x).off + 1) % 2 ^ 32 ∧
        (t.ctx n x).sregs = (s.ctx n x).sregs ∧ (t.ctx n x).preds = (s.ctx n x).preds ∧ (t.ctx n x).step = (s.ctx n x).step) ∧
    (st ≠ 5 ∨ s.qType q ≠ 1 → refused (.skip fn) 2) ∧
    (st = 6 → s.qType q = 1 → (s.qAct q = 0 → (s.core (s.qCore q)).fenceAt = none) → moves (.resume fn) 2 fun t =>
      ∀ n x, (s.queue q).bound = some (n, x) → x < 2 → t.ctx n x = { s.ctx n x with
        wait := none, cueWait := none, bucketWait := none, state := .issuing, reload := true }) ∧
    (st = 6 → s.qType q = 1 → s.qAct q = 0 → (s.core (s.qCore q)).fenceAt.isSome = true → refused (.resume fn) 3) ∧
    (st ≠ 6 ∨ s.qType q ≠ 1 → refused (.resume fn) 2) ∧
    (st = 1 → moves (.destroy fn) 0 fun t => t.cores = s.cores) ∧ (st ≠ 1 → refused (.destroy fn) 2)

/-- QUEUE_STOPPED and RESET_DONE, once what the control waits for is finished, leave the queue STOPPED and not busy; a reset queue has no stream
bound and no entry fetched (R235, R236). VF_FLR resets every queue of its act, disarms its cue entries and empties its hold; PF_FLR
does so for every act and takes the virtual functions away (R220). -/
def Obligations.ControlsEndAndFunctionsReset : Prop :=
  ∀ (s : State) (q k : Nat), q < 65536 → 1 ≤ k → k < 9 →
    (s.alive = true → (s.queue q).control = some 2 → s.stopDone q = true → Gives (.queueStopped q) s fun t =>
      t.qState q = 1 ∧ t.qBusy q = false ∧ (t.queue q).control = none ∧ t.qCons q = s.qCons q) ∧
    (s.alive = true → (s.queue q).control = some 3 → s.resetQuiet q = true → Gives (.resetDone q) s fun t =>
      t.qState q = 1 ∧ t.qBusy q = false ∧ (t.queue q).control = none ∧ (t.queue q).bound = none ∧
        (t.queue q).entries = [] ∧ (t.queue q).rung = []) ∧
    (s.hostOk k = true → Gives (.vfFlr k) s fun t =>
      (∀ r ∈ s.queuesOf k, t.qState r = 7) ∧
        (∀ e, e < 512 → s.cueAct e = k → t.flag (Reg.cueCtl e) Fld.cueCtlEnable = false) ∧
        t.hold k = { recs := [], dropped := 0, firstDrop := 0, lastDrop := 0 } ∧ t.vfsOff = s.vfsOff) ∧
    (s.hostOk 0 = true → Gives .pfFlr s fun t => t.vfsOff = true ∧
      ∀ e, e < 512 → s.cueAct e < 9 → t.flag (Reg.cueCtl e) Fld.cueCtlEnable = false)

/-- DOORBELL of 4 or 8 bytes by the function of a queue's act sets the producer count of a queue that the host feeds, or the consumer count of
one that it drains, where the count stays within the ring, and otherwise is rejected; while the queue resets the count is kept (R223 to R225,
R235). APERTURE_READ answers the bytes of near memory, a poisoned completion where a mark stands, zeros outside the act's windows, and Unsupported
Request for a malformed access; APERTURE_WRITE writes the bytes (R222). -/
def Obligations.DoorbellsAndApertureAccesses : Prop :=
  ∀ (s : State) (fn q size v off len : Nat) (data : Bytes), fn < 9 → q < 65536 → s.hostOk fn = true →
    let d := (v % 2 ^ 32 + 2 ^ 32 - s.qCons q) % 2 ^ 32
    let ring : Instr := .doorbell fn (64 * q) size v
    let a := s.apertureAddr fn off
    (size = 4 ∨ size = 8 →
      (s.qCreated q = true → s.queueAct q = some fn → s.qState q ≠ 7 →
        (s.hostProduces q = true → s.qUsed q ≤ d → d ≤ s.qSize q → Gives ring s fun t =>
          t.qProd q = v % 2 ^ 32 ∧ t.qCons q = s.qCons q ∧ OnlyRegs s t [Reg.qmQPtr q]) ∧
        (s.hostProduces q = true → (d < s.qUsed q ∨ s.qSize q < d) → Leaves ring s (s.rejectDoorbell fn q)) ∧
        (s.hostProduces q = false → s.hostConsumes q = true → d ≤ s.qUsed q → Gives ring s fun t =>
          t.qCons q = v % 2 ^ 32 ∧ (s.qType q ≠ 3 ∨ (s.queue q).ovf = none → t.qProd q = s.qProd q ∧
            OnlyRegs s t [Reg.qmQPtr q])) ∧
        (s.hostProduces q = false → (s.hostConsumes q = false ∨ s.qUsed q < d) →
          Leaves ring s (s.rejectDoorbell fn q))) ∧
      (s.qCreated q = true → s.queueAct q = some fn → s.qState q = 7 →
        Leaves ring s (s.modQueue q fun k => { k with rung := k.rung ++ [v % 2 ^ 32] })) ∧
      (s.qCreated q = false ∨ s.queueAct q ≠ some fn → Leaves ring s (s.rejectDoorbell fn q))) ∧
    (s.apertureForm fn off len = true → s.apertureOk fn a len false = true → s.marked .near a len = false →
      Leaves (.apertureRead fn off len) s { s with out := s.out ++ [.data fn off (s.readMem .near a len)] }) ∧
    (s.apertureForm fn off len = true → s.apertureOk fn a len false = true → s.marked .near a len = true →
      Leaves (.apertureRead fn off len) s { s with out := s.out ++ [.ep fn off] }) ∧
    (s.apertureForm fn off len = true → s.apertureOk fn a len false = false →
      Leaves (.apertureRead fn off len) s ((if fn = 0 ∧ s.nearAbsent a len = false then s else s.deniedEvent fn).emit
        (.data fn off (List.replicate len 0)))) ∧
    (s.apertureForm fn off len = false →
      Leaves (.apertureRead fn off len) s { s with out := s.out ++ [.ur fn off] }) ∧
    (s.apertureForm fn off data.length = false →
      Leaves (.apertureWrite fn off data) s { s with out := s.out ++ [.ur fn off] }) ∧
    (s.apertureForm fn off data.length = true → s.apertureOk fn a data.length true = false →
      Leaves (.apertureWrite fn off data) s
        (if fn = 0 ∧ s.nearAbsent a data.length = false then s else s.deniedEvent fn)) ∧
    (MemoriesCanonical s → s.apertureForm fn off data.length = true → s.apertureOk fn a data.length true = true →
      Gives (.apertureWrite fn off data) s fun t =>
        t.readMem .near a data.length = data ∧ t = { s with near := t.near, nearPoison := t.nearPoison } ∧
          ∀ y, (y < a ∨ a + data.length ≤ y) → t.readMem .near y 1 = s.readMem .near y 1)

/-- MSIX_UNMASK unmasks a vector and sends the message that its pending bit keeps; MSIX_MASK masks it; MSIX_TIMER past the deadline of an
event queue with pending records interrupts, and its pending count returns to zero; EVT_TEST writes a USER record to act 0 while act 0's
QSEL selects an event queue, and has no effect otherwise (R247, R249). Nothing else changes. -/
def Obligations.InterruptVectorsMaskAndSend : Prop :=
  ∀ (s : State) (fn vec q d : Nat) (sx : Word64), fn < 9 → vec < (if fn = 0 then 64 else 16) → q < 65536 →
    (s.hostOk fn = true → Gives (.msixUnmask fn vec) s fun t =>
      t.msixMasked fn vec = false ∧ Sparse.get false t.msixPba (fn * 64 + vec) = false ∧
        t.out = s.out ++ (if Sparse.get false s.msixPba (fn * 64 + vec) = true then [.msix fn vec] else []) ∧
        t = { s with msixMask := t.msixMask, msixPba := t.msixPba, out := t.out } ∧
        ∀ k, k ≠ fn * 64 + vec → Sparse.get true t.msixMask k = Sparse.get true s.msixMask k ∧
          Sparse.get false t.msixPba k = Sparse.get false s.msixPba k) ∧
    (s.hostOk fn = true → Gives (.msixMask fn vec) s fun t => t.msixMasked fn vec = true ∧
      t = { s with msixMask := t.msixMask } ∧
        ∀ k, k ≠ fn * 64 + vec → Sparse.get true t.msixMask k = Sparse.get true s.msixMask k) ∧
    (s.alive = true → (s.queue q).evDeadline = some d → d < s.now → s.qCreated q = true → s.qType q = 3 →
      s.fld (Reg.evtMod q) Fld.evtModTimeNs ≠ 0 → (s.queue q).evStamps ≠ [] →
      Gives (.msixTimer q) s fun t => t.fld (Reg.evtPending q) Fld.evtPendingRecords = 0 ∧ (t.queue q).evStamps = [] ∧
        (t.queue q).evDeadline = none ∧ RegsKept s t [Reg.evtPending q] ∧ BytesKept s t ∧
        (let f := (s.queueAct q).getD 0
         let v := s.fld (Reg.evtMod q) Fld.evtModVector
         (s.msixMasked f v = false → t.out = s.out ++ [.msix f v]) ∧
           (s.msixMasked f v = true → t.out = s.out ∧ Sparse.get false t.msixPba (f * 64 + v) = true))) ∧
    (s.hostOk 0 = true → (s.evtSelected 0).isSome = true → Leaves (.evtTest sx) s (s.actEvent 3 0 0 (leBytes 8 sx.toNat))) ∧
    (s.evtSelected 0 = none → Leaves (.evtTest sx) s s)

/-- COMMAND_ENTRY_FETCH takes the next entry of a running command queue with the checks of R232. STREAM_BIND binds the stream of the
head entry to the context that the queue's act gives it, when the context is free and its turn has come, at its last resume record or
its first bundle, and completes an entry whose checks failed, with an event for each condition beyond the first (R13, R205, R233,
R242). STREAM_END frees the context, passes the entry and gives the queue back its offset and step (R147, R167, R233). STREAM_FETCH_DONE
lets issue go on. COPY_MESSAGE_ARRIVE stores the oldest message of the sender that the end names, next in its order, where ring and
data area have room, enters one too large for the area as OVERSIZE, and discards a duplicate (R237 to R240). The other context of the
core stays as it was. -/
def Obligations.EntriesBecomeStreamsAndMessages : Prop :=
  ∀ (s : State) (q n x : Nat), q < 65536 → n < 208 → x < 2 →
    let k := s.queue q
    let c := s.ctx n x
    let ends (t : State) (count : Nat) (conds : List Nat) : Prop := t.qCons q = (count + 1) % 2 ^ 32 ∧
      t.fld (Reg.qmQState q) Fld.qmQStateLastStatus = statusOf conds % 2 ^ 8
    (s.alive = true → s.qCreated q = true → s.qType q = 1 → s.qRunning q = true → k.control = none →
      k.entries.length < s.qUsed q → k.entries.length < 4 + b2n k.begun →
      Gives (.commandEntryFetch q) s fun t =>
        let c := (s.qCons q + k.entries.length) % 2 ^ 32
        let bs := s.readEntry q c
        t.queue q = { k with entries := k.entries ++ [
          { count := c, stream := fieldAt bs 0 8, words := fieldAt bs 8 4, near := bit (fieldAt bs 12 4) 0,
            resume := fieldAt bs 16 6, resumeKib := fieldAt bs 24 4, bad := s.entryFaults (s.qAct q) bs }] } ∧
        OnlyQueue s t q []) ∧
    (∀ e rest, s.alive = true → s.streamReady q = true → k.entries = e :: rest → e.bad ≠ [] →
      Gives (.streamBind q) s fun t => (t.queue q).entries = rest ∧ ends t e.count e.bad ∧ t.cores = s.cores ∧
        t = { (s.modQueue q fun k => { k with entries := rest }).completeWith q e.count e.bad with
                fuse := s.fuse, pending := s.pending }) ∧
    (∀ e rest, s.alive = true → s.streamReady q = true → k.entries = e :: rest → e.bad = [] →
      s.bindTarget q = some (n, x) → c.queue = none → (x = 0 → (s.core n).recover = []) →
      nextTurn ((s.core n).rr x) (s.readyFor n x) = some q → (s.qContext q = 2 → s.sideFree n = true) →
      Gives (.streamBind q) s fun t =>
        (t.queue q).bound = some (n, x) ∧ (t.queue q).begun = true ∧ (t.queue q).entries = k.entries ∧
        (let d := t.ctx n x
         d.queue = some q ∧ d.act = s.qAct q ∧ d.kind = s.qContext q ∧ d.near = e.near ∧ d.base = e.stream ∧
           d.words = e.words ∧ d.entry = e.count ∧ d.resume = e.resume ∧ d.resumeKib = e.resumeKib ∧ d.state = .issuing ∧
           d.cur = none ∧ d.ended = false ∧
           d.seed = (if k.begun = true then k.seed else BitVec.ofNat 64 (s.reg (Reg.qmActSeed (s.qAct q)))) ∧
           (k.rec_ = none → d.word = 0 ∧ d.off = k.off ∧ d.step = (if k.begun = true then k.entryStep else k.step) ∧
             d.loops = [] ∧ d.sregs = c.sregs ∧ d.preds = c.preds) ∧
           ∀ r, k.rec_ = some r → d.word = r.word ∧ d.off = r.off ∧ d.step = r.step ∧ d.loops = r.loops ∧ d.sregs = r.sregs ∧
             d.preds = r.preds) ∧
        (s.qContext q ≠ 2 → ∀ y, y < 2 → y ≠ x → t.ctx n y = s.ctx n y) ∧ (∀ m, m ≠ n → t.core m = s.core m) ∧
        BytesKept s t) ∧
    (c.queue = some q → s.alive = true → c.ended = true → c.state ≠ .halted → s.quiet n x = true → c.notifies = [] →
      s.qState q ≠ 7 → Gives (.streamEnd n x) s fun t =>
        t.ctx n x = c.vacate ∧ (∀ y, y < 2 → y ≠ x → t.ctx n y = s.ctx n y) ∧ (t.queue q).bound = none ∧
          (t.queue q).begun = false ∧ (t.queue q).rec_ = none ∧ (t.queue q).entries = k.entries.drop 1 ∧
          (t.queue q).off = c.off ∧ (t.queue q).step = c.step ∧ ends t c.entry (c.conds.map (·.1)) ∧
          ∀ m, m ≠ n → t.core m = s.core m) ∧
    (c.state = .waitFetch → Gives (.streamFetchDone n x) s fun t =>
      CtxBecomes s t n x { c with state := .issuing, fetched := c.word }) ∧
    (∀ m rest, k.arriving = m :: rest → s.isCopy q = true → s.qTaking q = true → s.namesSender q m = true →
      s.inOrder q m = true →
      let area := s.dataSize q
      let place := s.dataPlace q m.length
      let a := s.reg (Reg.qmQData q) + place
      (s.copyDuplicate q m = true → Leaves (.copyMessageArrive q) s
        ((s.modQueue q fun k => { k with arriving := rest }).ackCopy q m)) ∧
      (s.copyDuplicate q m = false → roundUp m.length 64 ≤ area → s.copyRoom q m.length = true →
        Gives (.copyMessageArrive q) s fun t =>
          (t.queue q).arriving = rest ∧ t.qProd q = (s.qProd q + 1) % 2 ^ 32 ∧ (t.queue q).lastSrc = some m.srcOffset ∧
            (t.queue q).dataHead = place + roundUp m.length 64 ∧ t.cores = s.cores ∧
            (MemoriesCanonical s → s.reg (Reg.qmQShadow q) = 0 →
              rangesHit (a, m.data.length) (s.qSlot q (s.qProd q), 48) = false →
              t.readMem (s.qSpace q) a m.data.length = m.data)) ∧
      (s.copyDuplicate q m = false → area < roundUp m.length 64 → s.qUsed q < s.qSize q →
        Gives (.copyMessageArrive q) s fun t =>
          (t.queue q).arriving = rest ∧ t.qProd q = (s.qProd q + 1) % 2 ^ 32 ∧ (t.queue q).lastSrc = some m.srcOffset ∧
            (t.queue q).dataHead = k.dataHead ∧ t.cores = s.cores))

/-! The input pipeline. -/

/-- SAMPLE_FETCH appends the next entry of a sample queue, void from the start for the reasons that its checks give (R253);
DECODE_DISPATCH gives a free engine the next sample of its kind (R253, R255), or voids a live one that is late; DECODE_COMPLETE on
time keeps the decode of the source, or voids the sample (R256, R265). DECODE_BUDGET_TIMEOUT and STALE_TIMEOUT past their deadlines
void the sample and set IN.TIMING (R267, R268). After each the emitter runs as far as it can; while no completion waits and the head
of the queue cannot yet be placed, it only gives the head its stamp (R264, R266), and every core stays as it was. What a decoder makes
of the media is open (log 51). -/
def Obligations.SamplesAreFetchedDecodedAndVoided : Prop :=
  ∀ (s : State) (q m kind e count : Nat) (x : Sample), q < 65536 → m < 2 → kind < 4 → e < 6 → s.alive = true →
    let k := s.queue q
    let c := (s.qCons q + (k.pendCmpl.length + k.samples.length)) % 2 ^ 32
    let raw := newSample c (s.readEntry q c)
    let r := s.fetchReasons q raw
    let new := { raw with gen := (s.textGen q raw).getD (fieldAt raw.raw 15 1)
                          state := if r = [] then .fetched else .voided r s.now }
    let held (l : List Sample) : Prop := k.pendCmpl = [] ∧ ∃ h, l.head? = some h ∧ h.ready = false
    let voids (t : State) (y reason : Nat) : Prop :=
      held k.samples → (∀ h, k.samples.head? = some h → h.count ≠ y) →
        t.flag (Reg.inTiming q) Fld.inTimingVoided = true ∧ t.cores = s.cores ∧
        (t.queue q).samples.length = k.samples.length ∧
        ∀ i z, k.samples[i]? = some z → 0 < i → ∃ z', (t.queue q).samples[i]? = some z' ∧ z'.count = z.count ∧
          z'.raw = z.raw ∧ (z.count ≠ y → z' = z) ∧ (z.count = y → reason ∈ z'.reasons)
    (s.qCreated q = true → s.qType q = 2 → s.qRunning q = true → k.control = none → k.samples.length < s.inWindow q →
      k.loading = false → k.pendCmpl.length + k.samples.length < s.qUsed q →
      Gives (.sampleFetch q) s fun t =>
        (held (k.samples ++ [new]) → r.contains 6 = false →
          t.queue q = { k with samples := headStamped s.now (k.samples ++ [new]) } ∧ OnlyQueue s t q [Reg.inStatus q]) ∧
        (let u := s.modQueue q fun k => { k with samples := k.samples ++ [new] }
         let u := match s.staleDeadline q raw with
           | some d => if r.contains 6 then u.timingVoid q c 6 (stamp64 d) else u
           | none => u
         t = { u.runEmitter q with fuse := s.fuse, pending := s.pending })) ∧
    (s.engineLoad m kind e < s.engineCap kind e → s.nextSample m kind = some (q, x) →
      (∀ d, s.staleDeadline q x = some d → (s.now : Int) ≤ d) →
      Gives (.decodeDispatch m kind e) s fun t =>
        let now (y : Sample) : Sample := if y.count = x.count then { y with state := .dispatched e s.now } else y
        t.queue q = { k with samples := k.samples.map now } ∧
        t = { s with queues := t.queues, inputRr := t.inputRr } ∧ (∀ z, z ≠ q → t.queue z = s.queue z) ∧
        Sparse.get 65535 t.inputRr (m * 4 + kind) = q ∧
        ∀ j, j ≠ m * 4 + kind → Sparse.get 65535 t.inputRr j = Sparse.get 65535 s.inputRr j) ∧
    (∀ d, s.engineLoad m kind e < s.engineCap kind e → s.nextSample m kind = some (q, x) → s.staleDeadline q x = some d →
      d < (s.now : Int) → Gives (.decodeDispatch m kind e) s fun t => voids t x.count 6 ∧
        let u := { s with inputRr := Sparse.put s.inputRr (m * 4 + kind) q }
        t = { (u.timingVoid q x.count 6 (stamp64 d)).runEmitter q with fuse := s.fuse, pending := s.pending }) ∧
    (s.decoding q count = some (x, e) → (∀ d, s.budgetDeadline q x = some d → s.now ≤ d) → ∀ failed,
      Gives (.decodeComplete q ⟨count, failed⟩) s fun t =>
        let d := s.decodeOf q x failed
        let st : SampleState := if d.reasons = [] then .decoded s.now else .voided d.reasons s.now
        let mw := homeMidway q
        let bytes := if d.reasons = [] then s.takesMedia q x else 0
        let with_ (y : Sample) : Sample := { y with
          state := st, positions := d.positions, tokens := d.tokens, media := d.media, width := d.width
          height := d.height, depth := d.depth, errAt := d.errAt }
        let after (y : Sample) : Sample := if y.count = count then with_ y else y
        (held k.samples → (∀ h, k.samples.head? = some h → h.count ≠ count) →
          t.queue q = { k with samples := headStamped s.now (k.samples.map after) } ∧
          (∀ z, z ≠ q → t.queue z = s.queue z) ∧ t.cores = s.cores ∧ t.out = s.out ∧ (MemoriesCanonical s →
          BytesKeptOutside s t .near [(s.reg (Reg.inStageBase q) + x.count % s.inWindow q * s.inSlot q, bytes)]) ∧
          RegsKept s t [Reg.inStatus q, Reg.mdImgPixels mw, Reg.mdVidPixels mw e, Reg.mdAudSamples mw, Reg.tokBytes mw,
            Reg.tokTokens mw, Reg.mdErr mw]) ∧
        (let u := s.countDecode mw e x d
         let u := if d.reasons = [] then u.stage q x (u.takesMedia q x) else u
         t = { (u.modSample q count with_).runEmitter q with fuse := s.fuse, pending := s.pending })) ∧
    (∀ d, s.decoding q count = some (x, e) → s.budgetDeadline q x = some d → d < s.now →
      Gives (.decodeBudgetTimeout q count) s fun t => voids t count 7 ∧
        t = { ((s.timingVoid q count 7 d).modSample q count fun y => { y with errAt := d }).runEmitter q with
                fuse := s.fuse, pending := s.pending }) ∧
    (∀ d : Int, k.samples.find? (fun y => y.count = count) = some x → s.staleDeadline q x = some d → d < (s.now : Int) →
      (∀ a, x.admitted = some a → d < (a : Int)) → x.reasons.contains 6 = false →
      Gives (.staleTimeout q count) s fun t => voids t count 6 ∧
        t = { (s.timingVoid q count 6 (stamp64 d)).runEmitter q with fuse := s.fuse, pending := s.pending })

/-- TABLE_LOAD_COMMIT with the bank free reads the image and, where it can be read and passes its checks, makes it the slot's current
generation, one above the last, the one before staying as previous, and counts it in LOADS; otherwise every generation stays (R270).
BATCH_EMIT writes the oldest closed batch into its buffer, the header of Table 9.4 last, and adds 1 to EMIT_SEM; BATCH_RELEASE takes
one from FREE_SEM and adds 1 to RELEASED (R263). After each the emitter runs as far as it can; of the two about
batches, with nothing left to place or to complete and no WAIT of the act, these are the only effects. -/
def Obligations.TablesLoadAndBatchesPass : Prop :=
  ∀ (s : State) (q slot : Nat) (x : Sample) (b : Batch) (rest : List Batch) (failed : Bool), q < 65536 → slot < 36 →
    s.alive = true →
    let image := s.readMem x.space x.src x.length
    let ok := !s.unreadable x failed && (if slot < 32 then codeTableOk image else vocabOk image)
    let old := s.tsSlot slot
    let gen := match old.cur with | some g => (g.gen + 1) % 256 | none => 0
    let base := s.reg (Reg.inBatchBase q) + b.number % s.inNb q * s.inBuf q
    let idle : Prop := (s.queue q).samples = [] ∧ (s.queue q).pendCmpl = []
    let a := s.qAct q
    let emit := s.fld (Reg.inSems q) Fld.inSemsEmitSem
    let free := s.fld (Reg.inSems q) Fld.inSemsFreeSem
    (s.nextLoad slot = some (q, x) → old.prev = none → ok = true →
      Gives (.tableLoadCommit ⟨slot, failed⟩) s fun t =>
        t.tsSlot slot = { cur := some { gen := gen, image := image }, prev := old.cur, by_ := some (s.now, q) } ∧
          t.fld (Reg.tsSlot slot) Fld.tsSlotCurGen = gen % 2 ^ Fld.tsSlotCurGen.w ∧
          t.fld (Reg.tsSlot slot) Fld.tsSlotLoads =
            (s.fld (Reg.tsSlot slot) Fld.tsSlotLoads + 1) % 2 ^ Fld.tsSlotLoads.w ∧
          t.flag (Reg.tsSlot slot) Fld.tsSlotCurValid = true ∧
          (t.flag (Reg.tsSlot slot) Fld.tsSlotPrevValid = true ↔ old.cur.isSome = true) ∧
          t.reg (Reg.tsSize slot) = image.length % 2 ^ 64 ∧ ∀ j, j ≠ slot → t.tsSlot j = s.tsSlot j) ∧
    (s.nextLoad slot = some (q, x) → old.prev = none → ok = false →
      Gives (.tableLoadCommit ⟨slot, failed⟩) s fun t => t.ts = s.ts ∧
        t.reg (Reg.tsSlot slot) = s.reg (Reg.tsSlot slot) ∧
        t = { (s.modSample q x.count fun y => { y with state := .voided [9] s.now }).runEmitter q with
                fuse := s.fuse, pending := s.pending }) ∧
    (s.qCreated q = true → s.qType q = 2 → (s.queue q).closed = b :: rest →
      Gives (.batchEmit q) s fun t =>
        let planes (i : Nat) : Bytes := b.planes i (s.inL q) (s.inSegMax q)
        let media := b.mediaArea (s.inMedia q)
        let header := batchHeader b (s.inB q) s.now
        let quiet : Prop := idle ∧ ∀ n y, (s.ctx n y).wait = none ∨ (s.ctx n y).act ≠ a
        (quiet → (t.queue q) = { s.queue q with closed := rest } ∧ t.sem a emit = s.sem a emit + 1 ∧
          (∀ j, j ≠ a * 64 + emit → Sparse.get 0 t.sems j = Sparse.get 0 s.sems j) ∧ t.cores = s.cores ∧
          RegsKept s t [Reg.inStatus q] ∧
          (MemoriesCanonical s → t.readMem .near base header.length = header ∧
            BytesKeptOutside s t .near ((base, header.length) :: (base + s.inMoff q, media.length) ::
              (List.range (s.inB q)).map fun i => (base + 1024 + i * s.inQ q, (planes i).length)))) ∧
        (let u := State.each (List.range (s.inB q)) (fun i u =>
          u.writeMem .near (base + 1024 + i * s.inQ q) (planes i)) s
         let u := ((u.writeMem .near (base + s.inMoff q) media).writeMem .near base header).modQueue q fun k =>
          { k with closed := rest }
         t = { (u.addSem a emit 1).runEmitter q with fuse := s.fuse, pending := s.pending })) ∧
    (s.qCreated q = true → s.qType q = 2 → 1 ≤ s.sem a free →
      Gives (.batchRelease q) s fun t =>
        (idle → t.sem a free = s.sem a free - 1 ∧ (∀ j, j ≠ a * 64 + free → Sparse.get 0 t.sems j = Sparse.get 0 s.sems j) ∧
          (s.fld (Reg.inBatch q) Fld.inBatchReleased + 1 < 2 ^ Fld.inBatchReleased.w →
            t.fld (Reg.inBatch q) Fld.inBatchReleased = s.fld (Reg.inBatch q) Fld.inBatchReleased + 1) ∧
          t = { s with sems := t.sems, regs := t.regs, queues := t.queues } ∧ (∀ j, t.queue j = s.queue j) ∧
          RegsKept s t [Reg.inBatch q, Reg.inStatus q]) ∧
        t = { ((s.setSem a free (s.sem a free - 1)).addOpen (Reg.inBatch q) Fld.inBatchReleased 1).runEmitter q with
                fuse := s.fuse, pending := s.pending })

/-! The Carousel. -/

/-- BUCKET_HANDOVER enters a checked bucket in the lowest free slot and ends the slot's wait, waits while its tag is in flight or while
no slot or too little scratch is free, reports the conditions that its checks find, and ignores a repeat (R157, R277 to R280);
BUCKET_START starts it once its descriptor reads COMPLETE; SCRATCH_READ_DONE copies the contribution and begins the exchange (R278);
CAROUSEL_BLOCK_SEND sends the next reduce transmission, in DENSE one block for each of the shard's, each held (R282);
OPTIMIZER_TAKE_SHARD computes the next half from its sum and its moments (R296, R301); OPTIMIZER_COMMIT commits both halves, or
discards them under HOLD, and the gather begins (R295, R302); BUCKET_PEER_DEADLINE past the deadline records DEADLINE_MISSED and
re-arms it (R305). The other buckets go on as they were. -/
def Obligations.BucketsAdvanceOneStep : Prop :=
  ∀ (s : State) (n x m slot e i : Nat) (w : BucketWait) (b : Bucket), n < 208 → x < 2 → m < 2 → slot < 128 → e < 2 →
    let key := slotKey m slot
    let c := s.ctx n x
    let new := s.newBucket n x w
    let place := tagKey new.act new.tag
    let needed := s.scratchUsed new.act + s.bucketScratch new
    let room := s.fld (Reg.carScratchSize new.act) Fld.carScratchSizeMib * 2 ^ 20
    let repeats : Prop := Sparse.get? s.handed place = some new.step
    let others (t : State) (key : Nat) : Prop := ∀ j, j ≠ key → Sparse.get? t.buckets j = Sparse.get? s.buckets j
    let handed (t : State) : Prop := Sparse.get? t.handed place = some new.step ∧
      ∀ j, j ≠ place → Sparse.get? t.handed j = Sparse.get? s.handed j
    (c.bucketWait = some w →
      (¬repeats → s.bucketOf new.act new.tag = none → s.handoverConds new = [] → s.freeSlot new.mw = some i → needed ≤ room →
        Gives (.bucketHandover n x) s fun t =>
          let k := slotKey new.mw i
          Sparse.get? t.buckets k = some { new with scratch := s.bucketScratch new } ∧ others t k ∧ handed t ∧
            w.acd ∈ (t.core n).acdHeld ∧ t.ctx n x = { c with bucketWait := none } ∧
            (∀ y, y < 2 → y ≠ x → t.ctx n y = s.ctx n y) ∧ (∀ j, j ≠ n → t.core j = s.core j) ∧
            t = { s with cores := t.cores, buckets := t.buckets, handed := t.handed }) ∧
      (¬repeats → s.bucketOf new.act new.tag = none → s.handoverConds new ≠ [] →
        Gives (.bucketHandover n x) s fun t => t.buckets = s.buckets ∧ (t.ctx n x).bucketWait = none ∧ handed t ∧
          let u := s.endBucket { new with conds := s.handoverConds new } (s.handoverConds new)
          t = { State.handoverDone { u with handed := Sparse.put u.handed place new.step } n x with
                  fuse := s.fuse, pending := s.pending }) ∧
      (repeats → (∀ k d, s.bucketOf new.act new.tag = some (k, d) → d.started = true ∨ d.core = n) →
        Gives (.bucketHandover n x) s fun t =>
        CtxBecomes s t n x { c with bucketWait := none }) ∧
      (¬repeats → ((s.bucketOf new.act new.tag).isSome = true ∨
          s.handoverConds new = [] ∧ (s.freeSlot new.mw = none ∨ room < needed)) →
        Leaves (.bucketHandover n x) s s)) ∧
    (Sparse.get? s.buckets key = some b → b.act < 9 → b.axis < 4 →
      (b.state = .held → b.started = false → s.flag (Reg.mxAcd1 b.core b.acd) Fld.mxAcd1Complete = true →
        b.progressAt = none → Gives (.bucketStart m slot) s fun t =>
          Sparse.get? t.buckets key = some { b with started := true, progressAt := some s.now } ∧ others t key ∧
            t = { s with buckets := t.buckets }) ∧
      (b.state = .held → b.started = true → Gives (.scratchReadDone m slot) s fun t =>
        let own := s.contribution b
        (∃ d, Sparse.get? t.buckets key = some d ∧ d.own = own ∧ d.agreed = s.agreed b ∧ d.state ≠ .held ∧
          (d.scanned = true ↔ s.flag (Reg.mxAcd1 b.core b.acd) Fld.mxAcd1Poison = true ∨
            ∃ v ∈ own, F32.isFin v.toNat = false) ∧
          (1 < s.ringLen b → b.hop = 0 → d = { b with
            own := own, agreed := s.agreed b, scanned := d.scanned, state := .reduce })) ∧
        others t key ∧ b.acd ∉ (t.core b.core).acdHeld ∧ (b.act, b.step) ∈ t.reduceMark ∧
        (∀ a, a ≠ b.acd → (a ∈ (t.core b.core).acdHeld ↔ a ∈ (s.core b.core).acdHeld)) ∧
        ∀ j, j ≠ b.core → t.core j = s.core j) ∧
      (b.state = .reduce → b.hop + 1 < s.ringLen b → (b.hop = 0 ∨ s.allReceived b b.hop = true) →
        Gives (.carouselBlockSend m slot) s fun t => ∃ d, Sparse.get? t.buckets key = some d ∧ d.hop = b.hop + 1 ∧
          d.own = b.own ∧ others t key ∧
          (b.mode = 0 → b.hop + 2 < s.ringLen b →
            let plan := s.planOf b (s.sentShard b (b.hop + 1))
            d = { b with hop := b.hop + 1, sent := b.sent ++ plan.map fun p => blockId 1 (b.hop + 1) p.1 } ∧
              t.heldFrames.length = s.heldFrames.length + plan.length ∧ t.cores = s.cores ∧ BytesKept s t ∧
              t.reg (Reg.carBlocksTx b.mw) = (s.reg (Reg.carBlocksTx b.mw) + plan.length) % 2 ^ 64)) ∧
      (s.mayTake e b = true → (∀ p ∈ s.buckets, s.mayTake e p.2 = true → s.takeKey b ≤ s.takeKey p.2) →
        Sparse.get? b.halves e = none → b.msp e = 0 →
        (∀ p ∈ s.farReqs ++ s.farAsks, ∀ r ∈ p.2, r.owner ≠ .half key e) →
        Gives (.optimizerTakeShard e m slot) s fun t => (∃ d, Sparse.get? t.buckets key = some d ∧
          d.taken = b.taken ++ [e] ∧ Sparse.get? d.halves e = some (s.updateHalf b e) ∧ e ∈ d.computing ∧
          d.state = b.state ∧ d.sum = b.sum) ∧ BytesKept s t ∧ t.cores = s.cores ∧
          ∀ j, j ≠ key → (Sparse.get? t.buckets j).map (fun d => { d with computing := [] }) =
            (Sparse.get? s.buckets j).map (fun d => { d with computing := [] })) ∧
      (b.state = .update → b.taken.length = 2 → b.halves.length = 2 → s.votesMissing b = false → s.waitsSlice b = false →
        Sparse.rising none s.buckets = true →
        Gives (.optimizerCommit m slot) s fun t =>
          let poison := if s.holds_ b.act then b.voted else b.origin.or b.poison
          let held := s.holds_ b.act && poison.isSome
          let size (k : Nat) : Nat := ((Sparse.get? b.halves k).map fun h => h.master.length).getD 0
          (∀ d, Sparse.get? t.buckets key = some d → d.state = .gather ∧ d.poison = poison) ∧ others t key ∧
          (∀ k, k < 2 → t.reg (Reg.optUpdated k) = if b.opt = 0 ∨ held = true then s.reg (Reg.optUpdated k)
            else (s.reg (Reg.optUpdated k) + size k) % 2 ^ 64) ∧
          ∀ k, k < 2 → t.reg (Reg.optHeld k) = if b.opt = 0 ∨ held = false then s.reg (Reg.optHeld k)
            else (s.reg (Reg.optHeld k) + size k) % 2 ^ 64) ∧
      (∀ d, s.peerDue b = some d → d < s.now → Gives (.bucketPeerDeadline m slot) s fun t =>
        Sparse.get? t.buckets key = some { b with conds := withCond b.conds 0x40, progressAt := some s.now } ∧
          others t key ∧ t.cores = s.cores) ∧
      (∀ d, s.peerDue b = some d → s.now ≤ d → Leaves (.bucketPeerDeadline m slot) s s))

/-! The fabric. -/

/-- A port goes from TRAINING to AUTHENTICATING with all eight lanes locked and every credit but what its HELLO takes when its lanes
lock within 500 ms, and to QUARANTINED with reason 1 or 2 when they do not; it is quarantined with reason 3 when authentication lasts
beyond 2 s, is DEGRADED with reason 9 when credits stay away, comes back after 100 ms unless that was the third time within 60 s, trains
again from QUARANTINED in its time, by RETRY, or by LINK_ENABLE, retrains on a lost lane lock until the third within a second makes it
FAULTY, and is DISABLED with reason 12 by DISABLE (R310, R313, R314, Table 11.3); of two conditions in one tick the one that R315 puts
first stands. REKEY begins a new HELLO once a direction has counted 2^40 frames (R319). No other port and no core changes with it, and
outside these conditions nothing happens. -/
def Obligations.PortsChangeStateAsTheTableSays : Prop :=
  ∀ (s : State) (p lane vc : Nat) (signal cls : Bool), p < 8 → lane < 8 → vc < 4 →
    let k := s.port p
    let st := s.portState p
    let reason (t : State) : Nat := t.fld (Reg.lnkStatus p) Fld.lnkStatusReason
    let lanes (t : State) : Nat := t.fld (Reg.lnkStatus p) Fld.lnkStatusLanes
    let others (t : State) : Prop := t.cores = s.cores ∧ ∀ q, q < 8 → q ≠ p → t.portState q = s.portState q
    let enters (c : Instr) (n r : Nat) (P : State → Prop) : Prop := Gives c s fun t => t.portState p = n ∧
      (r ≠ 0 → reason t = r) ∧ (t.port p).since = s.now ∧ (t.port p).generation = k.generation + 1 ∧
      (n = 0 ∨ n = 1 ∨ n = 6 ∨ n = 7 → lanes t = 0 ∧ (t.port p).keys = none) ∧ others t ∧ P t
    let retrained (t : State) : Prop := t.fld (Reg.lnkRetry p) Fld.lnkRetryRetrains =
      min (s.fld (Reg.lnkRetry p) Fld.lnkRetryRetrains + 1) (2 ^ Fld.lnkRetryRetrains.w - 1)
    let stays (c : Instr) : Prop := Leaves c s s
    let apart : Prop := k.left ≠ some s.now
    (st = 1 → s.now ≤ k.since + 500000000 →
      (Config.ownChain.length ≤ 3955 → Gives (.trainingComplete p) s fun t => t.portState p = 2 ∧ lanes t = 0xFF ∧ others t ∧
        (t.port p).since = s.now ∧ (t.port p).rxSeq = 0 ∧ (t.port p).outq = [] ∧ (t.port p).ownHello.isSome = true ∧
        (t.port p).hello = none ∧
        ∀ v, v < 4 → (v ≠ 3 → t.fld (Reg.lnkVc p v) Fld.lnkVcCredits0 = vcBuffer v) ∧
          t.fld (Reg.lnkVc p v) Fld.lnkVcCredits1 = vcBuffer v) ∧
      (3955 < Config.ownChain.length → Gives (.trainingComplete p) s fun t =>
        t.portState p = 6 ∧ reason t = 3 ∧ lanes t = 0 ∧ others t)) ∧
    (st ≠ 1 ∨ k.since + 500000000 < s.now → stays (.trainingComplete p)) ∧
    (st = 1 → k.since + 500000000 < s.now → enters (.trainingTimeout p signal) 6 (if signal = true then 2 else 1) fun _ => True) ∧
    (st ≠ 1 ∨ s.now ≤ k.since + 500000000 → stays (.trainingTimeout p signal)) ∧
    (st = 2 → k.since + 2000000000 < s.now → enters (.authTimeout p) 6 3 fun _ => True) ∧
    (st ≠ 2 ∨ s.now ≤ k.since + 2000000000 → stays (.authTimeout p)) ∧
    (k.rekeyDue = true → k.rekeying = false → st = 4 → Gives (.rekey p) s fun t =>
      (t.port p).rekeying = true ∧ (t.port p).keys = k.keys ∧ t.portState p = 4 ∧ (t.port p).hello = none ∧
        (t.port p).ownHello.map (·.nonce) = some (leBytes 32 (Config.nonce s.free).toNat) ∧
        t = { s with ports := t.ports, regs := t.regs, free := t.free, out := t.out } ∧
        (∀ q, q ≠ p → t.port q = s.port q) ∧ RegsKept s t [Reg.lnkVc p 3, Reg.lnkBytesTx p]) ∧
    (k.rekeyDue = false ∨ k.rekeying = true → stays (.rekey p)) ∧
    (∀ d, Sparse.get? k.creditAt (laneKey vc (b2n cls)) = some d → d < s.now →
      (st = 4 ∨ (st ≠ 4 ∧ ¬apart ∧ stateRank st < 2) → enters (.creditTimeout p vc cls) 5 9 fun t =>
        (t.port p).degrades = k.degrades ++ [s.now]) ∧
      (st ≠ 4 → (apart ∨ 2 ≤ stateRank st) → stays (.creditTimeout p vc cls))) ∧
    (st = 5 → s.creditsFull p = true → k.since + 100000000 ≤ s.now →
      ((recent k.since 60000000000 k.degrades).length < 3 → enters (.degradedReturn p) 4 0 fun _ => True) ∧
      (3 ≤ (recent k.since 60000000000 k.degrades).length → stays (.degradedReturn p))) ∧
    (st ≠ 5 ∨ s.creditsFull p = false ∨ s.now < k.since + 100000000 → stays (.degradedReturn p)) ∧
    (st = 6 → (reason s = 1 ∨ reason s = 2) → k.since + 1000000000 ≤ s.now → enters (.quarantineRetry p) 1 0 fun t =>
      (t.port p).authFails = k.authFails ∧ retrained t) ∧
    (st = 6 → reason s = 3 → k.since + 10000000000 ≤ s.now → k.authFails < 3 → enters (.quarantineRetry p) 1 0 fun t =>
      (t.port p).authFails = k.authFails + 1 ∧ retrained t) ∧
    (st ≠ 6 ∨ (reason s ≠ 1 ∧ reason s ≠ 2 ∧ reason s ≠ 3) ∨ s.now < k.since + 1000000000 → stays (.quarantineRetry p)) ∧
    (st = 4 → (recent s.now 1000000000 k.retrains).length < 2 → enters (.laneLockLoss p lane) 1 0 fun t =>
      retrained t ∧ (t.port p).left = some s.now ∧ (t.port p).outq = [] ∧ (t.port p).unacked = []) ∧
    (st = 4 → 2 ≤ (recent s.now 1000000000 k.retrains).length → enters (.laneLockLoss p lane) 7 11 fun t =>
      (t.port p).left = some s.now ∧ (t.port p).outq = [] ∧ (t.port p).unacked = []) ∧
    (apart → (st = 2 ∨ st = 3 ∨ st = 5) → enters (.laneLockLoss p lane) 1 0 retrained) ∧
    (apart → (st = 0 ∨ st = 1 ∨ st = 6 ∨ st = 7) → stays (.laneLockLoss p lane)) ∧
    (¬apart → st = 5 → (recent s.now 1000000000 k.retrains).length < 2 → Gives (.laneLockLoss p lane) s fun t =>
      t.portState p = 5 ∧ others t) ∧
    ((st = 5 ∨ st = 6 ∨ st = 7) → enters (.retry p) 1 0 fun t => (t.port p).authFails = 0 ∧ retrained t) ∧
    (st ≠ 5 → st ≠ 6 → st ≠ 7 → stays (.retry p)) ∧
    (st ≠ 0 → enters (.disable p) 0 12 fun t => t.flag (Reg.lnkCtl p) Fld.lnkCtlDisable = true) ∧
    (st = 0 → Gives (.disable p) s fun t => t.portState p = 0 ∧ t.flag (Reg.lnkCtl p) Fld.lnkCtlDisable = true ∧
      OnlyRegs s t [Reg.lnkCtl p]) ∧
    (s.flag (Reg.lnkCtl p) Fld.lnkCtlDisable = true → st = 0 → 1 < s.extent (p / 2) → 5 ≤ s.phase →
      enters (.linkEnable p) 1 0 fun t => t.flag (Reg.lnkCtl p) Fld.lnkCtlDisable = false) ∧
    (s.flag (Reg.lnkCtl p) Fld.lnkCtlDisable = false ∨ st ≠ 0 ∨ s.extent (p / 2) ≤ 1 ∨ s.phase < 5 →
      Gives (.linkEnable p) s fun t => t.portState p = st ∧ t.flag (Reg.lnkCtl p) Fld.lnkCtlDisable = false ∧
        OnlyRegs s t [Reg.lnkCtl p])

/-- LINK_BLOCK_RECEIVE takes the link block that comes next, frees what its acknowledgement covers and takes the credits it brings; one
that cannot be corrected, or out of order, is counted and NAKed once; a NAK has every link block since its ACK sent again (R309, R310,
R313). AUTH of a HELLO that passes its checks is answered with a PROOF, and a PROOF that verifies gives the port its keys and puts a
well-placed partner's port in service; one that does not quarantines it (R317 to R319). FRAME_FORWARD routes a frame for another module
on, unless it is one that never is (R325). A held frame is sent again after 100 µs (R324). TIME_FRAME_SEND sends this port's stamps
(R329). -/
def Obligations.LinksCarryBlocksAndFrames : Prop :=
  ∀ (s u : State) (p i tx txFrac : Nat) (b : LinkBlock) (f : Frame) (h : Hello) (g : Bytes) (w : HeldFrame), p < 8 →
    let k := s.port p
    let sat (t : State) (r : Nat) (d : Fld) (n : Nat) : Prop := t.fld r d = min (s.fld r d + n) (2 ^ d.w - 1)
    let next : Prop := b.errors ≤ 16 ∧ b.seq.toNat = (k.rxSeq + 1) % 4096
    let lane := laneKey b.creditVc.toNat (b2n b.creditClass)
    let credits := creditFld (b2n b.creditClass)
    let vc := Reg.lnkVc p b.creditVc.toNat
    let kept := k.sent.filter fun x => !seqLe x.seq b.ack.toNat
    let taken : Port := { k with rxSeq := b.seq.toNat, nakSent := false, openRx := flitOpen (flitOpen k.openRx b.flit0) b.flit1
                                 unacked := k.unacked.filter (fun x => !seqLe x.1 b.ack.toNat), sent := kept }
    let counts (t : State) : Prop := sat t (Reg.lnkFec p) Fld.lnkFecCorrected b.errors ∧
      t.reg (Reg.lnkBytesRx p) = (s.reg (Reg.lnkBytesRx p) + (flitBytes b.flit0 + flitBytes b.flit1)) % 2 ^ 64
    let nak : LinkSent := { seq := (k.txSeq + 1) % 4096, nak := true, credits := (0, 0, 0), flit0 := noFlit, flit1 := noFlit
                            data := List.replicate 512 0 }
    let bad (t : State) : Prop := if b.errors ≤ 16 then sat t (Reg.lnkFec p) Fld.lnkFecCorrected b.errors
      else sat t (Reg.lnkFec p) Fld.lnkFecUncorrected 1
    (s.linked p = true → next → k.outq = [] →
      (b.nak = false → b.credits.toNat = 0 → Gives (.linkBlockReceive p b) s fun t =>
        t.port p = taken ∧ counts t ∧ OnlyPort s t p [Reg.lnkFec p, Reg.lnkBytesRx p]) ∧
      (b.nak = false → 0 < b.credits.toNat → (∀ d, Sparse.get? k.creditAt lane = some d → s.now ≤ d) →
        Gives (.linkBlockReceive p b) s fun t => t.port p = { taken with creditAt := Sparse.del k.creditAt lane } ∧ counts t ∧
          t.fld vc credits = min (s.fld vc credits + b.credits.toNat) (vcBuffer b.creditVc.toNat) ∧
          OnlyPort s t p [Reg.lnkFec p, Reg.lnkBytesRx p, vc]) ∧
      (b.nak = true → b.credits.toNat = 0 → k.lastReplay ≠ some b.ack.toNat → Gives (.linkBlockReceive p b) s fun t =>
        t.port p = { taken with replays := 1, lastReplay := some b.ack.toNat } ∧ counts t ∧
          sat t (Reg.lnkRetry p) Fld.lnkRetryReplays 1 ∧
          t.out = s.out ++ kept.map fun x => .link p (x.bytes b.seq.toNat))) ∧
    (s.linked p = true → ¬next → k.nakSent = false → Gives (.linkBlockReceive p b) s fun t =>
      t.port p = { k with nakSent := true, txSeq := (k.txSeq + 1) % 4096
                          sent := (k.sent ++ [nak]).drop (k.sent.length + 1 - 2048) } ∧
        t.out = s.out ++ [.link p (nak.bytes k.rxSeq)] ∧ bad t ∧ RegsKept s t [Reg.lnkFec p] ∧
        t = { s with ports := t.ports, regs := t.regs, out := t.out }) ∧
    (s.linked p = true → ¬next → k.nakSent = true → Gives (.linkBlockReceive p b) s fun t =>
      bad t ∧ OnlyRegs s t [Reg.lnkFec p]) ∧
    (s.linked p = false → Leaves (.linkBlockReceive p b) s s) ∧
    (s.linked p = true → f.typ.toNat = 0xB → f.dst.toNat = s.self → frameCrc f = true → s.screen p f = (u, true) →
      let v := u.beginRekey p
      let reason (t : State) : Nat := t.fld (Reg.lnkStatus p) Fld.lnkStatusReason
      (f.payload = helloBytes h → v.authFrom p f (.hello h) = true → Gives (.auth p f (.hello h)) s fun t =>
        (∀ own, (v.port p).ownHello = some own → v.helloFault h = none →
          (t.port p).hello = some h ∧ (t.port p).sentProof = true ∧ t.portState p = v.portState p) ∧
        (∀ r, v.portState p = 2 → v.helloFault h = some r → t.portState p = 6 ∧ reason t = r) ∧
        t.partner p = h.addr.toNat ∧ t.fld (Reg.lnkStatus p) Fld.lnkStatusPartnerPort = h.port.toNat ∧
        t = { v.gotHello p h with fuse := s.fuse, pending := s.pending }) ∧
      (f.payload = g → v.authFrom p f (.proof g) = true → ∀ own, (v.port p).ownHello = some own → (v.port p).hello = some h →
        v.portState p = 2 → Gives (.auth p f (.proof g)) s fun t =>
          let sound := Config.proofOk h.chain (transcript own h) g
          (sound = true → v.wellPlaced p h = true → t.portState p = 4 ∧
            (t.port p).keys = (if h.encrypt = true then some (linkKeys own h) else none) ∧ (t.port p).rxCount = 0 ∧
            (t.flag (Reg.lnkStatus p) Fld.lnkStatusEncrypted = true ↔ h.encrypt = true)) ∧
          (sound = true → v.wellPlaced p h = false → t.portState p = 6 ∧ reason t = 6 ∧ (t.port p).keys = none) ∧
          (sound = false → t.portState p = 6 ∧ reason t = 3 ∧ (t.port p).keys = none)) ∧
      (∀ msg, f.payload = authBytes msg → v.authFrom p f msg = false → Leaves (.auth p f msg) s (v.addrDrop p))) ∧
    ((s.portState p = 4 ∨ s.portState p = 5) → f.dst.toNat ≠ s.self → s.screen p f = (u, true) →
      (f.typ.toNat ≠ 7 → f.typ.toNat ≠ 0xB → Gives (.frameForward p f) s fun t =>
        (∀ r f', u.nextPort f (some p) = .out r f' →
          let f'' := { f' with hops := f'.hops + 1, enc := (u.port r).keys.isSome }
          (u.mayPut r f'' = true → t.out.getLast? = some (.frame r f'')) ∧
          (u.mayPut r f'' = false → t.out = u.out ∧ (t.port r).outq = (u.port r).outq ++ [{ frame := f'', came := some p, orig := f }])) ∧
        t = { u.route (some p) f with fuse := s.fuse, pending := s.pending }) ∧
      (f.typ.toNat = 7 ∨ f.typ.toNat = 0xB → Leaves (.frameForward p f) s (u.addrDrop p))) ∧
    (s.heldFrames[i]? = some w →
      (w.sent + 100000 < s.now → Gives (.frameResendTimeout i) s fun t =>
        t.heldFrames = s.heldFrames.set i { w with sent := s.now } ∧ t.cores = s.cores ∧ BytesKept s t ∧
          t = { State.sendFrame { s with heldFrames := s.heldFrames.set i { w with sent := s.now } } w.frame with
                  fuse := s.fuse, pending := s.pending }) ∧
      (s.now ≤ w.sent + 100000 → Leaves (.frameResendTimeout i) s s)) ∧
    (s.alive = true → s.inService p = true →
      let stamp := tx * 65536 + txFrac % 65536
      let e := k.lastRx.getD (0, 0)
      Gives (.timeFrameSend p tx txFrac) s fun t =>
        (t.port p).timeSeq = (k.timeSeq + 1) % 2 ^ 32 ∧ (∀ q, q ≠ p → t.port q = s.port q) ∧ t.cores = s.cores ∧ BytesKept s t ∧
        t = { (s.modPort p fun k => { k with timeSeq := (k.timeSeq + 1) % 2 ^ 32 }).sendOut p
                (s.newFrame (s.partner p) 7 3 [] (timeBytes k.timeSeq stamp e.1 e.2)) with
                fuse := s.fuse, pending := s.pending })

/-- What each frame for this module does once it has passed the checks of every frame (R322, R323): an ACK releases the frames it
names, a COPY from the sender that its queue names joins the message it is part of while the queue takes messages and is
acknowledged again where that message is already in, a TIME frame is measured, a newer LINK_STATE is entered and passed on,
UNREACHABLE for a frame of this module changes nothing, a REREQ sends a held block again, and a BLOCK that no bucket in flight expects
is dropped. A frame that fails the condition of its type is dropped and counted in ADDR_DROPS (R330). No core changes with any of them. -/
def Obligations.ArrivingFramesHaveTheirEffect : Prop :=
  ∀ (s u : State) (p rx frac : Nat) (f : Frame), p < 8 →
    let q := fieldAt f.ext 0 2
    let seq := fieldAt f.ext 8 4
    let total := fieldAt f.ext 12 4
    let k := s.queue q
    let stamp := rx * 65536 + frac % 65536
    let link := fieldAt f.payload 0 4
    let e : LinkFault := { addr := bits link 0 16, port := bits link 16 3, state := bits link 19 3, gen := fieldAt f.payload 4 4 }
    let known := u.faults.find? fun y => y.addr = e.addr && y.port = e.port
    let copyOk := u.dinEnd q && u.copyKind q = 2 && u.logicalOf f.src.toNat = some (u.peerCoord q) &&
      u.peerQueue q = fieldAt f.ext 2 2
    let drops (c : Instr) : Prop := DropsFrame c s u p
    (FrameArrives s u p f 4 →
      (u.heldFrames.any (ackReleases f) = true →
        Gives (.ack p f) s fun t => t = { u with heldFrames := t.heldFrames, fuse := s.fuse, pending := s.pending } ∧
          (∀ h ∈ s.heldFrames, h ∈ t.heldFrames ↔ ackReleases f h = false) ∧ (∀ h ∈ t.heldFrames, h ∈ s.heldFrames) ∧
          t.cores = s.cores) ∧
      (u.heldFrames.any (ackReleases f) = false → drops (.ack p f))) ∧
    (FrameArrives s u p f 2 →
      (copyOk = true → u.qTaking q = true →
        (∀ n, k.recvSeq = some n → serialLe n seq = false →
          Leaves (.copy p f) s (u.sendAck f.src.toNat (copyAck q seq))) ∧
        ((∀ n, k.recvSeq = some n → serialLe n seq = true) →
          let old := ((k.partials.find? fun y => y.1 = seq).map (·.2)).getD []
          let parts := old.filter (fun y => y.1 ≠ fieldAt f.ext 16 4) ++ [(fieldAt f.ext 16 4, f.payload)]
          let others := k.partials.filter fun y => y.1 ≠ seq
          ((k.arriving.any fun m => m.msgSeq = seq) = true → Leaves (.copy p f) s u) ∧
          ((k.arriving.any fun m => m.msgSeq = seq) = false →
            (assembled total parts = none → Gives (.copy p f) s fun t => OnlyQueue u t q [] ∧
              t.queue q = { k with partials := others ++ [(seq, parts)] }) ∧
            ∀ bs, assembled total parts = some bs → Gives (.copy p f) s fun t => OnlyQueue u t q [] ∧
              ∃ m ∈ (t.queue q).arriving, m.msgSeq = seq ∧ m.data = bs ∧ m.length = total ∧
                m.srcQueue = fieldAt f.ext 2 2 ∧ m.srcOffset = fieldAt f.ext 4 4 ∧ u.logicalOf f.src.toNat = some m.srcCoord ∧
                (t.queue q).arriving.filter (fun a => a.msgSeq ≠ seq) = k.arriving ∧
                t.queue q = { k with partials := others, arriving := (t.queue q).arriving }))) ∧
      (copyOk = true → u.qTaking q = false → Leaves (.copy p f) s u) ∧
      (copyOk = false → drops (.copy p f))) ∧
    (FrameArrives s u p f 7 →
      (f.src.toNat = u.partner p → Gives (.time p f rx frac) s fun t =>
        (t.port p).lastRx = some (fieldAt f.payload 8 8 * 65536 + fieldAt f.payload 4 2, stamp) ∧ t.cores = s.cores ∧
          (timeStamps f.payload stamp = none → t.now = s.now ∧ t.clock = s.clock ∧ t.regs = u.regs) ∧
          (∀ x, timeStamps f.payload stamp = some x →
            t.fld (Reg.lnkTime p) Fld.lnkTimeDelayPs = ofSigned 32 x.delay ∧
            (s.timeSource ≠ 3 → t.now = s.now ∧ t.clock = s.clock)) ∧
          t = { u.timeFrame p f stamp with fuse := s.fuse, pending := s.pending }) ∧
      (f.src.toNat ≠ u.partner p → drops (.time p f rx frac))) ∧
    (FrameArrives s u p f 8 →
      (e.addr ≠ u.self → (∀ x, known = some x → x.gen < e.gen) → Gives (.linkState p f) s fun t =>
        (known.isSome = true ∨ u.faults.length < 512 → e ∈ t.faults) ∧
        (known = none → 512 ≤ u.faults.length → t.faults = s.faults) ∧
        (∀ x ∈ s.faults, (x.addr ≠ e.addr ∨ x.port ≠ e.port) → x ∈ t.faults) ∧ t.cores = s.cores ∧
        t = { (u.noteFault e).notice (some p) e.addr e.port e.state e.gen with fuse := s.fuse, pending := s.pending }) ∧
      (e.addr = u.self ∨ (∃ x, known = some x ∧ e.gen ≤ x.gen) → drops (.linkState p f))) ∧
    (FrameArrives s u p f 0xA →
      (u.sentHeader f.payload = true → Leaves (.unreachable p f) s u) ∧
      (u.sentHeader f.payload = false → drops (.unreachable p f))) ∧
    (FrameArrives s u p f 5 →
      let tag := bits (fieldAt f.payload 0 8) 1 16
      let hop := bits (fieldAt f.payload 0 8) 17 4
      let first := bits (fieldAt f.payload 0 8) 21 32
      let named (h : HeldFrame) : Bool := h.frame.dst = f.src && h.frame.typ.toNat = 1 && fieldAt h.frame.ext 10 2 = tag &&
        bits (fieldAt h.frame.ext 22 1) 0 4 = hop && fieldAt h.frame.ext 12 4 = first
      (∀ h, u.heldFrames.find? named = some h → Gives (.rereq p f) s fun t =>
        t.heldFrames = s.heldFrames.map (fun g => if g = h then { g with sent := s.now } else g) ∧ t.buckets = s.buckets ∧
          t.cores = s.cores ∧
          t = { State.sendFrame { u with heldFrames := t.heldFrames } h.frame with fuse := s.fuse, pending := s.pending }) ∧
      ((∀ h ∈ s.heldFrames, named h = false) →
        (∀ y ∈ s.buckets, y.2.tag = tag → blockId 1 hop first ∉ y.2.sent ∧ blockId 2 hop first ∉ y.2.sent) →
        drops (.rereq p f))) ∧
    (FrameArrives s u p f 1 →
      let hdr := parseHdr f.ext
      u.bucketFrom f.src.toNat hdr.tag hdr.step = none →
        (hdr.kind ≠ 2 → drops (.block p f)) ∧ (hdr.kind = 2 → drops (.gatherBlockReceive p f)))

/-- A reduce block, a gather block and a vote for a bucket in flight. A reduce block that passes its checks is kept with the bucket,
counted, acknowledged and progress; one that fails is counted and asked for again, and the fourth failure takes the port to FAULTY
with reason 10 (R286, R305, R324, R331); a gather block that passes is accepted, and where it is its shard's next its bytes stand
behind those stored before (R302); one whose code table is gone is accepted with CODE_TABLE among the bucket's conditions (R287). A
block accepted before is acknowledged again and changes no bucket. A vote of another device is recorded once (R295). Other buckets stay
as they were. -/
def Obligations.BlocksAndVotesReachTheirBucket : Prop :=
  ∀ (s u : State) (p key : Nat) (f : Frame) (b : Bucket), p < 8 → b.act < 9 → b.axis < 4 →
    let h := parseHdr f.ext
    let id := blockId h.kind h.hop h.first
    let w := f.payload
    let vote : Vote := { owner := fieldAt w 2 2, poison := bit (fieldAt w 8 1) 0, index := fieldAt w 12 4,
                         coord := fieldAt w 16 2 }
    let sat (t : State) (r : Nat) (d : Fld) : Prop := t.fld r d = min (s.fld r d + 1) (2 ^ d.w - 1)
    let others (t : State) : Prop := t.cores = s.cores ∧ ∀ j, j ≠ key → Sparse.get? t.buckets j = Sparse.get? s.buckets j
    let received (t : State) : Prop := t.reg (Reg.carBlocksRx b.mw) = (s.reg (Reg.carBlocksRx b.mw) + 1) % 2 ^ 64
    let again (c : Instr) : Prop := Gives c s fun t => t.buckets = s.buckets ∧ t.cores = s.cores ∧
      t = { u.sendAck f.src.toNat (blockAck b.tag h.hop h.first) with fuse := s.fuse, pending := s.pending }
    let fails (c : Instr) (st : Nat) : Prop := Gives c s fun t =>
      let tries := Sparse.get 0 b.attempts id + 1
      (∃ d, Sparse.get? t.buckets key = some d ∧ d = { b with
        attempts := Sparse.put b.attempts id (tries % 4), asked := id :: b.asked.filter (· ≠ id) }) ∧ others t ∧
      sat t (Reg.carRetry b.mw) Fld.carRetryRetries ∧ sat t (Reg.lnkRetry p) Fld.lnkRetryBlockFails ∧
      (tries = 4 → u.portState p = 4 → t.portState p = 7 ∧ t.fld (Reg.lnkStatus p) Fld.lnkStatusReason = 10) ∧
      (tries ≠ 4 → t.portState p = s.portState p) ∧
      t = { u.blockFailed p key b h st f.src.toNat with fuse := s.fuse, pending := s.pending }
    (FrameArrives s u p f 1 → u.bucketFrom f.src.toNat h.tag h.step = some (key, b) → Sparse.get? u.buckets key = some b →
      1 ≤ h.hop → h.hop < u.ringLen b →
      (b.accepted.contains id = true →
        (h.kind ≠ 2 → again (.block p f)) ∧ (h.kind = 2 → again (.gatherBlockReceive p f))) ∧
      (b.accepted.contains id = false → h.kind ≠ 2 →
        (blockStatus f h (u.reduceFits b h) [] = none → Gives (.block p f) s fun t =>
          (∃ d, Sparse.get? t.buckets key = some d ∧ d.accepted = id :: b.accepted ∧
            d.blocks = b.blocks ++ [f.ext ++ f.payload] ∧ d.asked = b.asked.filter (· ≠ id) ∧ d.progressAt = some s.now ∧
            d.own = b.own) ∧ received t ∧ others t) ∧
        (∀ st, blockStatus f h (u.reduceFits b h) [] = some st → fails (.block p f) st)) ∧
      (b.accepted.contains id = false → h.kind = 2 →
        let image := if h.mode = 1 then u.tableImage h.slot h.gen else some []
        let lost := image.isNone && crcFits f.ext f.payload && hdrFits f.ext && u.gatherFits b h && f.payload.length = h.packed
        let shard := u.gatherShard b h.hop
        let old := Sparse.get (0, 0) b.stored shard
        let size := blockSize f.payload.length
        (lost = false → ∀ st, blockStatus f h (u.gatherFits b h) (image.getD []) = some st →
          fails (.gatherBlockReceive p f) st) ∧
        (lost = true ∨ blockStatus f h (u.gatherFits b h) (image.getD []) = none → Sparse.rising none u.buckets = true →
          Gives (.gatherBlockReceive p f) s fun t => others t ∧ received t ∧
            ∀ d, Sparse.get? t.buckets key = some d → d.accepted = id :: b.accepted ∧ d.progressAt = some s.now ∧
              (lost = true → 0x10 ∈ d.conds) ∧
              (b.arrived = [] → f.ext.length = 32 →
                (blockPlan b.wfmt (u.shard b shard).1 (u.shard b shard).2)[old.1]? = some (h.first, h.elements) →
                Sparse.get (0, 0) d.stored shard = (old.1 + 1, old.2 + size) ∧
                (MemoriesCanonical s → (∀ y, y = 0 ∨ y = b.act → ∀ j ∈ s.defaultEvq y, s.qSpace j = .host) →
                  t.readMem .near (b.nextPlace shard) size = padTo size (f.ext ++ f.payload)))))) ∧
    (FrameArrives s u p f 6 → u.bucketFrom f.src.toNat (fieldAt w 0 2) (fieldAt w 4 4) = some (key, b) →
      Sparse.get? u.buckets key = some b → u.holds_ b.act = true → vote.owner < u.ringLen b → vote.owner ≠ u.ringAt b →
      (∀ v ∈ b.votes, v.owner ≠ vote.owner) →
      Gives (.vote p f) s fun t => (∃ d, Sparse.get? t.buckets key = some d ∧ d.votes = b.votes ++ [vote] ∧
        d.sum = b.sum ∧ d.progressAt = some s.now ∧
        (b.state ≠ .vote → d.state = b.state) ∧
        (b.state = .vote → d.state = if b.votes.length + 1 < s.ringLen b then .vote else .update)) ∧ others t)

/-! The Safety Net. -/

/-- HEARTBEAT_SEND sends a BEAT to each ring neighbour once PERIOD_NS has passed; an accepted BEAT re-arms its neighbour's deadline and
clears a suspicion of it; a neighbour silent for TIMEOUT_NS is suspected at its warden (R347, R348). A warden that accepts SUSPECT
probes its subject; a PROBE is answered; a reply that still waits clears the suspicion; without one, and on LOST, the warden declares
the subject lost and names the wardens and the entries anew. A suspicion that stays for 4 × TIMEOUT_NS goes to the other warden; HALT
has both wardens probed (R350); a newer REMAP of the warden is applied: its wardens stand, and the rollback begins, or the act halts
(R349, R353). A frame that fails its condition is dropped (R322), and before its time no timeout does anything. -/
def Obligations.HeartbeatsSuspectProbeAndRemap : Prop :=
  ∀ (s u : State) (p a : Nat) (f : Frame) (w : Watch) (nb : Neighbour), p < 8 →
    let kind (n : Nat) : Prop := s.alive = true ∧ fieldAt f.payload 0 1 = n ∧ FrameArrives s u p f 9
    let src := f.src.toNat
    let subject := fieldAt f.payload 2 2
    let is (t v : State) : Prop := t = { v with fuse := s.fuse, pending := s.pending }
    let suspicion : Watch := { subject := a, since := s.now, stage := 1 }
    let probe (x stage : Nat) : Watch := { subject := x, since := s.now, stage := stage }
    let probing (v : State) (x : Nat) : Prop := (v.probes.any fun y => y.subject = x && y.stage = 0) = true ∨ x ∈ v.lostModules
    let lost (t : State) (x : Nat) : Prop := x ≠ s.self → x ∉ s.lostModules → x ∈ t.lostModules ∧
      ((s.spareModule x && !s.remapTarget x) = false → t.remapGen = (s.remapGen + 1) % 2 ^ 32 ∧
        (s.chooseSpare x = none → t.fabricHalted = true))
    let checks (t v : State) : Prop :=
      (v.isWarden = false → v.fabricHalted = false → (∀ y ∈ v.probes, y.stage ≠ 1) →
        probe v.primary 1 ∈ t.probes ∧ probe v.backup 1 ∈ t.probes ∧ (∀ y ∈ v.probes, y ∈ t.probes)) ∧
      (v.isWarden = true ∨ v.fabricHalted = true ∨ (∃ y ∈ v.probes, y.stage = 1) → is t v)
    (s.ready = true → s.beatDue = true → Gives .heartbeatSend s fun t => t.beatAt = some s.now ∧ t.cores = s.cores ∧
      t.peers = s.peers ∧
      is t (State.each s.neighbours (fun n t => t.heartbeat n 0 t.self t.fabricStep 0) { s with beatAt := some s.now })) ∧
    (s.ready = false ∨ s.beatDue = false → Leaves .heartbeatSend s s) ∧
    (kind 0 → u.neighbours.contains src = true → Gives (.beat p f) s fun t =>
      t.peers = s.peers.filter (fun y => y.addr ≠ src) ++ [{ addr := src, lastBeat := s.now }] ∧
        t.suspicions = s.suspicions.filter (fun y => y.subject ≠ src) ∧ t.cores = s.cores ∧ t.queues = s.queues ∧ BytesKept s t ∧
        ((∀ y ∈ s.peers, s.now ≤ y.lastBeat + s.hbTimeout) →
          is t { u with peers := t.peers, suspicions := t.suspicions })) ∧
    (kind 0 → u.neighbours.contains src = false → DropsFrame (.beat p f) s u p) ∧
    (s.peers.find? (fun y => y.addr = a) = some nb →
      (s.ready = true → nb.lastBeat + s.hbTimeout < s.now → (s.suspicions.any fun y => y.subject = a) = false →
        Gives (.heartbeatTimeout a) s fun t => t.suspicions = s.suspicions ++ [suspicion] ∧ t.peers = s.peers ∧
          t.cores = s.cores ∧
          (s.wardenOf a = s.self → ¬probing s a → t.probes = s.probes ++ [probe a 0]) ∧
          (s.wardenOf a ≠ s.self → t.probes = s.probes) ∧
          is t (State.raiseSuspect { s with suspicions := s.suspicions ++ [suspicion] } (s.wardenOf a) a)) ∧
      (s.ready = false ∨ s.now ≤ nb.lastBeat + s.hbTimeout ∨ (s.suspicions.any fun y => y.subject = a) = true →
        Leaves (.heartbeatTimeout a) s s)) ∧
    (kind 1 → let cond := u.isWarden && (u.logicalOf subject).any fun l => (u.neighboursOf l).contains src
      (cond = true → ¬probing u subject → Gives (.suspect p f) s fun t =>
        t.probes = s.probes ++ [probe subject 0] ∧ t.cores = s.cores ∧
          is t (State.heartbeat { u with probes := t.probes } subject 2 subject u.fabricStep 0)) ∧
      (cond = true → probing u subject → Leaves (.suspect p f) s u) ∧
      (cond = false → DropsFrame (.suspect p f) s u p)) ∧
    (kind 2 → let cond := u.isWarden || src = u.primary || src = u.backup
      (cond = true → Gives (.probe p f) s fun t => t.probes = s.probes ∧ t.cores = s.cores ∧ BytesKept s t ∧
        is t (u.heartbeat src 3 u.self u.fabricStep 0)) ∧
      (cond = false → DropsFrame (.probe p f) s u p)) ∧
    (kind 3 →
      (u.waitsProbe src = true → Gives (.probeReply p f) s fun t =>
        (∀ y ∈ t.probes, y.subject ≠ src ∧ y ∈ s.probes) ∧ t.suspicions = s.suspicions.filter (fun y => y.subject ≠ src) ∧
          is t { u with probes := t.probes, suspicions := t.suspicions }) ∧
      (u.waitsProbe src = false → DropsFrame (.probeReply p f) s u p)) ∧
    (s.probes.find? (fun y => y.subject = a && decide (y.since + s.hbTimeout < s.now)) = some w →
      let v := { s with probes := s.probes.erase w }
      (s.ready = true → w.stage = 0 → Gives (.probeTimeout a) s fun t => lost t a ∧ is t (v.declareLost a)) ∧
      (s.ready = true → w.stage ≠ 0 → (v.probes.any fun y => y.stage = 1) = false → s.fabricHalted = false →
        Gives (.probeTimeout a) s fun t => t.fabricHalted = true ∧ t.suspicions = [] ∧ is t v.wardensLost) ∧
      (s.ready = true → w.stage ≠ 0 → (v.probes.any fun y => y.stage = 1) = true ∨ s.fabricHalted = true →
        Leaves (.probeTimeout a) s v) ∧
      (s.ready = false → Leaves (.probeTimeout a) s s)) ∧
    (kind 4 →
      (u.wardenOf subject = u.self → subject = src → Gives (.lost p f) s fun t => lost t src ∧ is t (u.declareLost src)) ∧
      (u.wardenOf subject ≠ u.self ∨ subject ≠ src → DropsFrame (.lost p f) s u p)) ∧
    (s.suspicions.find? (fun y => y.subject = a) = some w →
      (s.ready = true → w.since + 4 * s.hbTimeout < s.now →
        (w.stage = 1 → Gives (.suspectEscalateTimeout a) s fun t =>
          t.suspicions = s.suspicions.map (fun v => if v = w then { v with since := s.now, stage := 2 } else v) ∧
            t.cores = s.cores ∧ t.peers = s.peers ∧
            is t (State.raiseSuspect { s with suspicions := t.suspicions }
              (if s.wardenOf a = s.primary then s.backup else s.primary) a)) ∧
        (w.stage ≠ 1 → Gives (.suspectEscalateTimeout a) s fun t => t.suspicions = s.suspicions.erase w ∧
          checks t { s with suspicions := s.suspicions.erase w })) ∧
      (s.ready = false ∨ s.now ≤ w.since + 4 * s.hbTimeout → Leaves (.suspectEscalateTimeout a) s s)) ∧
    (kind 9 →
      (u.neighbours.contains src = true → Gives (.halt p f) s fun t => t.suspicions = s.suspicions ∧ checks t u) ∧
      (u.neighbours.contains src = false → DropsFrame (.halt p f) s u p)) ∧
    (s.alive = true → FrameArrives s u p f 0xC →
      let act := fieldAt f.payload 4 1 % 16
      let step := fieldAt f.payload 8 4
      (u.remapOk f = true → Gives (.remap p f) s fun t => t.remapGen = fieldAt f.payload 0 4 ∧ t.suspicions = [] ∧
        t.primary = fieldAt f.payload 12 2 ∧ t.backup = fieldAt f.payload 14 2 ∧
        (remapEntries f.payload = [] ∨ step = 0xFFFFFFFF → t.fabricHalted = true ∧ t.rollback = s.rollback) ∧
        (remapEntries f.payload ≠ [] → step ≠ 0xFFFFFFFF →
          ∃ r, t.rollback = some r ∧ r.step = step ∧ r.act = act ∧ r.restored = false ∧ ∀ y ∈ t.buckets, y.2.act ≠ act) ∧
        is t (u.applyRemap f.payload)) ∧
      (u.remapOk f = false → DropsFrame (.remap p f) s u p))

/-- A CHECKPOINT frame from a module whose copies this one takes is kept until its slice is whole; SLICE_ACK, CKPT_DONE, CKPT_COMMIT and
RESTORED, each from the module that may send it, mark a slice as held by the buddy, note a module that has done, commit a newer step,
and note a module that has restored; from any other they are dropped (R322, R323, R351 to R353). RESTORE_COMPLETE, once the queues have
drained and a copy of the step is there, restores from it, the act's seed included: the rollback is over, or waits for its gathers and
for the other modules alone; before that it changes nothing. -/
def Obligations.CheckpointsAreHeldCommittedAndRestored : Prop :=
  ∀ (s u : State) (p : Nat) (f : Frame) (r : Rollback), p < 8 → s.alive = true →
    let kind (n : Nat) : Prop := fieldAt f.payload 0 1 = n ∧ FrameArrives s u p f 9
    let src := f.src.toNat
    let step := fieldAt f.payload 4 4
    let tag := fieldAt f.payload 16 2
    let last := u.fld Reg.netCkpt Fld.netCkptLastStep
    let newer : Prop := last = 0xFFFFFFFF ∨ last < step
    let is (t v : State) : Prop := t = { v with fuse := s.fuse, pending := s.pending }
    (FrameArrives s u p f 3 →
      let piece : PartIn := { step := fieldAt f.ext 4 4, tag := fieldAt f.ext 0 2, part := fieldAt f.ext 2 2
                              total := fieldAt f.ext 14 6, got := [(fieldAt f.ext 8 6, f.payload)] }
      (u.ckptFrom src = none → DropsFrame (.checkpointFrame p f) s u p) ∧
      (u.ckptFrom src ≠ none → Gives (.checkpointFrame p f) s fun t =>
        ((∀ y ∈ s.partsIn, y.step ≠ piece.step ∨ y.tag ≠ piece.tag) →
          t.partsIn = s.partsIn ++ [piece] ∧ is t { u with partsIn := t.partsIn }) ∧
        (∀ y ∈ s.partsIn, (y.step ≠ piece.step ∨ y.tag ≠ piece.tag) → y ∈ t.partsIn) ∧ t.cores = s.cores ∧
        is t (u.ckptFrame p f))) ∧
    (kind 7 →
      (src ≠ u.buddyOf u.selfLogical true → DropsFrame (.sliceAck p f) s u p) ∧
      (src = u.buddyOf u.selfLogical true → (∀ c, u.ckpt = some c → c.step ≠ step) → Leaves (.sliceAck p f) s u) ∧
      ∀ c, src = u.buddyOf u.selfLogical true → u.ckpt = some c → c.step = step → Gives (.sliceAck p f) s fun t =>
        let acked (l : Slice) : Slice := if l.tag = tag then { l with acked := l.acked || l.snapped } else l
        ((∃ x ∈ u.ckptTags, x ≠ tag ∧ ∀ l ∈ c.slices, l.tag = x → l.acked = false) →
          t.ckpt = some { c with slices := c.slices.map acked } ∧ is t { u with ckpt := t.ckpt }) ∧
        is t (u.modSlice tag fun l => { l with acked := l.acked || l.snapped }).ckptCheck) ∧
    (kind 5 →
      let all := u.jobModules.all fun a => (u.wardenDone ++ [(step, src)]).contains (step, a)
      (u.self ≠ u.primary → DropsFrame (.ckptDone p f) s u p) ∧
      (u.self = u.primary → all = false → Gives (.ckptDone p f) s fun t => (step, src) ∈ t.wardenDone ∧
        (∀ y ∈ s.wardenDone, y ∈ t.wardenDone) ∧ is t { u with wardenDone := t.wardenDone }) ∧
      (u.self = u.primary → all = true → Gives (.ckptDone p f) s fun t =>
        t.fld Reg.netCkpt Fld.netCkptLastStep = (if last = 0xFFFFFFFF ∨ last < step then step else last) ∧
          (∀ y ∈ t.wardenDone, y.1 ≠ step) ∧ (∀ y ∈ s.wardenDone, y.1 ≠ step → y ∈ t.wardenDone))) ∧
    (kind 6 →
      (src = u.primary → newer → Gives (.ckptCommit p f) s fun t => t.fld Reg.netCkpt Fld.netCkptLastStep = step ∧
        (∀ c, t.ckpt = some c → c.step ≠ step) ∧ RegsKept u t [Reg.netCkpt] ∧
        is t { u with regs := t.regs, ckpt := t.ckpt }) ∧
      (src ≠ u.primary ∨ ¬newer → DropsFrame (.ckptCommit p f) s u p)) ∧
    (kind 8 →
      let by_ := if u.restoredBy.contains src then u.restoredBy else u.restoredBy ++ [src]
      (u.self ≠ u.primary → DropsFrame (.restored p f) s u p) ∧
      (u.self = u.primary → Gives (.restored p f) s fun t => t.restoredBy = by_ ∧
        ((∀ r, u.rollback = some r → r.complete = false ∨ u.jobModules.all by_.contains = false) →
          is t { u with restoredBy := t.restoredBy }) ∧
        (∀ r, u.rollback = some r → r.complete = true → u.jobModules.all by_.contains = true → t.rollback = none))) ∧
    (s.rollback = some r →
      (s.ready = true → s.rollbackDrained r = true → (r.restored = true ∨ s.rollbackCopy r ≠ none) →
        Gives .restoreComplete s fun t =>
          (∀ r', t.rollback = some r' → r'.restored = true ∧ r'.step = r.step ∧ r'.act = r.act) ∧
          (∀ c, r.restored = false → s.rollbackCopy r = some c → r.act < 9 →
            (∀ b, (b ∈ s.updates.map (·.2) ∨ some b ∈ c.slices.map (·.shape)) → b.act < 9 ∧ b.axis < 4) →
            t.reg (Reg.qmActSeed r.act) = c.seed % 2 ^ 64)) ∧
      (s.ready = false ∨ s.rollbackDrained r = false ∨ (r.restored = false ∧ s.rollbackCopy r = none) →
        Leaves .restoreComplete s s)) ∧
    (s.rollback = none → Leaves .restoreComplete s s)

/-- CORE_WATCHDOG fences a core whose context has neither issued nor completed for WDOG_US microseconds, with cause 3 (R336): neither context
issues, unit work is abandoned, and the core's memories and running transfers stand as they were, until FENCED_TRANSFER_ABANDON drops the transfers that
run on 5 ms after detection (R338). A spare that passes its test takes the logical core that waits for it if the headline act still wants it, and becomes idle
otherwise; one that fails is fenced with cause 4 (R339). RECOVER_RESUME binds the next stream that waits on the core, at its last resume record (R340). DOUBLED_SWAP_TIMEOUT
takes a stream that has waited too long off its core, which then turns to its other logical core (R341). RETEST takes a fenced core to TESTING, and RETEST_DONE on to IDLE_SPARE or back
(R358). STACK_INTERFACE_LOSS leaves its die on three stacks when everything fits, and loses the module when it does not or a stack was lost before (R343, R344); CROSS_LINK_ERROR and MIDWAY_UE
lose the module: PHASE reads 0xF, every context halts and every queue stops (R17, R335, R337). RAIL_SAMPLE and TEMP_SAMPLE show the sample; the 100th sample in a row beyond a rail's
warning limit sets WARN, and a trip of a rail or of a sensor loses the module and takes it DOWN (R356, R357). In every other case each of these commands leaves
a module out of reset as it is. -/
def Obligations.FaultsFenceCoresOrLoseTheModule : Prop :=
  ∀ (s : State) (n x r st t0 m mv : Nat) (temp : Int), n < 208 → x < 2 → r < 14 → t0 < 10 → st < 32 → m < 2 → s.alive = true →
    let k := s.core n
    let shown := [Reg.netCore n, Reg.netStatus]
    let lost (t : State) : Prop := t.phase = 0xF ∧ t.flag Reg.netStatus Fld.netStatusLost = (decide (s.phase ≠ 0xF) || s.flag Reg.netStatus Fld.netStatusLost) ∧
      (s.phase ≠ 0xF → (∀ y z, z < 2 → Sparse.get? s.cores y ≠ none → (t.ctx y z).state = .halted ∧ t.mayIssue y z = false) ∧
        ∀ q ∈ s.createdQueues, t.qState q = 1)
    let fenced (cause : Nat) (t : State) : Prop := t.coreState n = 4 ∧ t.fld (Reg.netCore n) Fld.netCoreCause = cause ∧
      (t.core n).fenceAt = some s.now ∧ t.mayIssue n 0 = false ∧ t.mayIssue n 1 = false ∧
      t.ctxProducts n 0 = [] ∧ t.ctxProducts n 1 = [] ∧ (t.core n).logical = [] ∧ (t.core n).xfers = k.xfers ∧
      (t.core n).stage = k.stage ∧ (t.core n).acc = k.acc ∧ (t.core n).vregs = k.vregs ∧ (t.core n).masks = k.masks ∧
      (k.logical = [] → k.testing = none → ∀ y, y ≠ n → t.core y = s.core y)
    let late := max (s.ctx n x).lastIssue k.progressAt + s.fld Reg.netCtl Fld.netCtlWdogUs * 1000 < s.now
    (s.coreState n ≠ 0 → s.coreState n ≠ 4 → s.ctxWatched n x = true → late → Gives (.coreWatchdog n x) s (fenced 3)) ∧
    (s.coreState n = 0 ∨ s.coreState n = 4 ∨ s.ctxWatched n x = false ∨ ¬late → Leaves (.coreWatchdog n x) s s) ∧
    (∀ since, k.fenceAt = some since → since + 5000000 < s.now →
      Leaves (.fencedTransferAbandon n) s (s.setCore n { k with xfers := [] })) ∧
    ((∀ since, k.fenceAt = some since → s.now ≤ since + 5000000) → Leaves (.fencedTransferAbandon n) s s) ∧
    (∀ y, k.testing = some y → s.coreState n ≠ 0 → s.coreState n ≠ 4 → Gives (.spareTestDone n false) s (fenced 4)) ∧
    (∀ y, k.testing = some y →
      (s.hosted y.1 y.2.1 = false → y.1 = s.headline → Gives (.spareTestDone n true) s fun t => t.coreState n = 3 ∧
        t.core n = { k with testing := none, lastTest := some s.uptime, logical := k.logical ++ [(y.1, y.2.1)] } ∧
        OnlyCore s t n shown) ∧
      (s.hosted y.1 y.2.1 = true ∨ y.1 ≠ s.headline → Gives (.spareTestDone n true) s fun t => t.coreState n = 1 ∧
        t.core n = { k with testing := none, recover := [], lastTest := some s.uptime } ∧ OnlyCore s t n shown)) ∧
    (k.testing = none → Leaves (.spareTestDone n true) s s ∧ Leaves (.spareTestDone n false) s s) ∧
    (∀ q rest, k.recover = q :: rest → s.coreRuns n = true →
      (s.streamReady q = false ∨ s.bindTarget q ≠ some (n, 0) → Leaves (.recoverResume n) s (s.setCore n { k with recover := rest })) ∧
      (s.streamReady q = true → s.bindTarget q = some (n, 0) →
        ((s.ctx n 0).queue ≠ none → Leaves (.recoverResume n) s s) ∧
        ((s.ctx n 0).queue = none → Gives (.recoverResume n) s fun t =>
          (t.core n).recover = rest ∧ (t.ctx n 0).queue = some q ∧ (t.queue q).bound = some (n, 0) ∧
          (∀ rc, (s.queue q).rec_ = some rc → (t.ctx n 0).word = rc.word ∧ (t.ctx n 0).off = rc.off ∧
            (t.ctx n 0).step = rc.step ∧ (t.ctx n 0).loops = rc.loops) ∧
          ((s.queue q).rec_ = none → (t.ctx n 0).word = 0 ∧ (t.ctx n 0).off = (s.queue q).off ∧ (t.ctx n 0).loops = []) ∧
          (∀ y, y ≠ n → t.core y = s.core y) ∧ BytesKept { s with cores := t.cores } t))) ∧
    (k.recover = [] ∨ s.coreRuns n = false → Leaves (.recoverResume n) s s) ∧
    (∀ since q, s.waitSince n = some since → s.otherReady n = true → s.fld Reg.netCtl Fld.netCtlSwapWait * 40 ≤ s.now - since →
      (s.ctx n 0).queue = some q → Gives (.doubledSwapTimeout n) s fun t =>
        (t.ctx n 0).queue = none ∧ (t.queue q).bound = none ∧ (t.queue q).step = (s.ctx n 0).step ∧
          (t.queue q).rec_ = (s.queue q).rec_ ∧ t.ctxProducts n 0 = [] ∧ t.ctxXfers n 0 = [] ∧ (t.core n).logical = k.logical ∧
          (t.core n).leaving = some (s.fld (Reg.qmQCfg q) Fld.qmQCfgCore) ∧
          t = { s with cores := t.cores, queues := t.queues, regs := t.regs } ∧ (∀ y, y ≠ n → t.core y = s.core y) ∧
          RegsKept s t ((List.range 4).map (Reg.mxXpq n))) ∧
    ((∀ since, s.waitSince n = some since → s.otherReady n = false ∨ s.now - since < s.fld Reg.netCtl Fld.netCtlSwapWait * 40) →
      Leaves (.doubledSwapTimeout n) s s) ∧
    (s.hostOk 0 = true → s.started = true → s.coreState n = 4 → Gives (.retest n) s fun t => t.coreState n = 2 ∧ OnlyRegs s t shown) ∧
    (s.hostOk 0 = false ∨ s.started = false ∨ s.coreState n ≠ 4 → Leaves (.retest n) s s) ∧
    (s.coreState n = 2 → k.testing = none →
      (Gives (.retestDone n true) s fun t => t.coreState n = 1 ∧
        t.core n = { k with fenceAt := none, frozenRegs := [], lastTest := some s.uptime } ∧ OnlyCore s t n shown) ∧
      Gives (.retestDone n false) s fun t => t.coreState n = 4 ∧ OnlyRegs s t shown) ∧
    (s.coreState n ≠ 2 ∨ k.testing ≠ none → Leaves (.retestDone n true) s s ∧ Leaves (.retestDone n false) s s) ∧
    (s.stackUp st = true →
      let map (t : State) : Prop := t.fld Reg.memStackOk Fld.memStackOkMap = s.fld Reg.memStackOk Fld.memStackOkMap - 2 ^ st
      (s.stackLost = none → s.fitsWithout st = true → Gives (.stackInterfaceLoss st) s fun t => map t ∧
        t = { s with regs := t.regs, stackLost := some st
                     nearPoison := s.nearPoison.filter fun p => p.1 * 64 / dieRange ≠ st / 4
                     out := if s.phase = 6 then s.out ++ [.rollbackRequest] else s.out } ∧ RegsKept s t [Reg.memStackOk]) ∧
      (s.stackLost ≠ none ∨ s.fitsWithout st = false → Gives (.stackInterfaceLoss st) s fun t => map t ∧ lost t)) ∧
    (s.stackUp st = false → Leaves (.stackInterfaceLoss st) s s) ∧
    (Gives .crossLinkError s fun t => lost t ∧ t.flag Reg.topState Fld.topStateXlinkOk = false) ∧ Gives (.midwayUe m) s lost ∧
    (let runs := Sparse.get 0 s.railRuns r
     let high := Sparse.get 0 s.railOver r
     let warns := railWarns r mv = true ∧ runs = 99
     let trips := railTrips r mv = true ∧ high = 2
     let sampled (t : State) : Prop := t.fld (Reg.netRail r) Fld.netRailMv = min mv 65535 ∧
       t.railRuns = runOn s.railRuns r (railWarns r mv) ∧ t.railOver = runOn s.railOver r (railTrips r mv)
     Sparse.rising none s.railRuns = true → Sparse.rising none s.railOver = true →
     (trips → Gives (.railSample r mv) s fun t => sampled t ∧ lost t ∧ t.flag (Reg.netRail r) Fld.netRailTrip = true ∧
       t.alive = false ∧ t.fld Reg.pwrStatus Fld.pwrStatusState = 4) ∧
     (warns → Gives (.railSample r mv) s fun t => sampled t ∧ t.flag (Reg.netRail r) Fld.netRailWarn = true ∧
       (¬trips → t.phase = s.phase ∧ t.power = s.power)) ∧
     (¬warns → ¬trips → Gives (.railSample r mv) s fun t => sampled t ∧
       t = { s with regs := t.regs, railRuns := t.railRuns, railOver := t.railOver } ∧ RegsKept s t [Reg.netRail r])) ∧
    (let old := s.fld (Reg.netTemp t0) Fld.netTempLevel
     let new := tempLevel old temp
     let sampled (t : State) : Prop := t.fld (Reg.netTemp t0) Fld.netTempLevel = new ∧
       t.fld (Reg.netTemp t0) Fld.netTempTemp = (temp % 65536).toNat
     (new ≤ old ∨ old = 3 → Gives (.tempSample t0 temp) s fun t => sampled t ∧ OnlyRegs s t [Reg.netTemp t0]) ∧
     (old < new → new < 3 → Gives (.tempSample t0 temp) s fun t => sampled t ∧ t.phase = s.phase ∧ t.power = s.power) ∧
     (old < 3 → new = 3 → Gives (.tempSample t0 temp) s fun t => sampled t ∧ lost t ∧ t.alive = false ∧
       t.flag Reg.bbxStatus Fld.bbxStatusFrozen = true ∧ t.fld Reg.pwrStatus Fld.pwrStatusState = 4))

/-- FLASH_ERASE, FLASH_PROGRAM and FLASH_READ of act 0 begin their command and set BUSY, or set DENIED where the area is in use; they have no effect while a command
runs. FLASH_CMD_DONE leaves the sector erased, the page holding the buffer, or the buffer holding the page, and no other byte changed; it waits for a mirror page, for a power warning, and
while the flash is off (R362, R384, Table 13.10). MIRROR_PAGE_PROGRAM takes a page of entries once it is full, its first entry is 1 ms old or the record is frozen, and MIRROR_PAGE_DONE leaves it
in the ring (R360). FREEZE and THAW stop and resume the record; PWR_WARN_ASSERT freezes it with cause 3, and PWR_WARN_N_RISE clears WARN_IN alone (R361, R362). -/
def Obligations.FlashAndBlackBoxCommands : Prop :=
  ∀ (s : State) (op : FlashOp) (l : List Bytes),
    let a := s.fld Reg.bootFlashAddr Fld.bootFlashAddrAddr / 256 * 256
    let busy (t : State) : Bool := t.flag Reg.bootFlashCmd Fld.bootFlashCmdBusy
    let frozen (t : State) : Bool := t.flag Reg.bbxStatus Fld.bbxStatusFrozen
    let cause (t : State) : Nat := t.fld Reg.bbxStatus Fld.bbxStatusCause
    let begins (c : Instr) (n : Nat) : Prop := Gives c s fun t => busy t = true ∧
      t.flashOp = some { cmd := n, addr := a, data := s.flashBuf, started := s.mirror.programming.isNone } ∧
        t = { s with regs := t.regs, flashOp := t.flashOp } ∧ RegsKept s t [Reg.bootFlashCmd]
    let denied (c : Instr) : Prop := Gives c s fun t => t.flag Reg.bootFlashCmd Fld.bootFlashCmdDenied = true ∧ busy t = false ∧
      OnlyRegs s t [Reg.bootFlashCmd]
    let m := s.mirror
    let due : Prop := s.pageRoom ≤ m.unflushed.length ∨ frozen s = true ∨ ∃ e es, m.unflushed = e :: es ∧ e.1 + 1000000 ≤ s.now
    (s.hostOk 0 = true → busy s = false →
      (s.flashDenied a = false → begins .flashErase 1 ∧ begins .flashProgram 2) ∧ begins .flashRead 3 ∧
        (s.flashDenied a = true → denied .flashErase ∧ denied .flashProgram)) ∧
    (s.hostOk 0 = false ∨ busy s = true → Leaves .flashErase s s ∧ Leaves .flashProgram s s ∧ Leaves .flashRead s s) ∧
    (s.flashOp = some op → s.alive = true → op.started = true → (op.cmd = 3 ∨ s.warned = false) → s.flashOff = false →
      MemoriesCanonical s → Gives .flashCmdDone s fun t => busy t = false ∧ t.flashOp = none ∧
        (op.cmd = 1 → RegsKept s t [Reg.bootFlashCmd] ∧ (∀ y, t.flashRead y 1 =
          if y / 65536 = op.addr / 65536 then [erasedByte] else s.flashRead y 1) ∧
          t = { s with regs := t.regs, flash := t.flash, flashOp := none }) ∧
        (op.cmd = 2 → RegsKept s t [Reg.bootFlashCmd] ∧ t.flashRead op.addr op.data.length = op.data ∧
          (∀ y, (y < op.addr ∨ op.addr + op.data.length ≤ y) → t.flashRead y 1 = s.flashRead y 1) ∧
          t = { s with regs := t.regs, flash := t.flash, flashOp := none }) ∧
        (op.cmd = 3 → (∀ k, k < 32 → t.reg (Reg.bootFlashBuf k) = ofLe (s.flashRead (op.addr + 8 * k) 8)) ∧
          t = { s with regs := t.regs, flashOp := none } ∧
          RegsKept s t (Reg.bootFlashCmd :: (List.range 32).map Reg.bootFlashBuf))) ∧
    (s.flashOp = none → Leaves .flashCmdDone s s) ∧
    (s.flashOp = some op → (s.alive = false ∨ op.started = false ∨ (op.cmd ≠ 3 ∧ s.warned = true) ∨ s.flashOff = true) →
      Leaves .flashCmdDone s s) ∧
    (m.active = true → m.programming = none → m.unflushed ≠ [] → s.flashOff = false → due →
      Leaves .mirrorPageProgram s { s with mirror := { m with programming := some ((m.unflushed.take s.pageRoom).map (·.2))
                                                              unflushed := m.unflushed.drop s.pageRoom } }) ∧
    (m.active = false ∨ m.programming ≠ none ∨ m.unflushed = [] ∨ s.flashOff = true ∨ ¬due → Leaves .mirrorPageProgram s s) ∧
    (let goesOn := s.flashOp.map fun o => { o with started := true }
     m.programming = some l →
      (s.flashOff = false → MemoriesCanonical s → l.length ≤ 8 → l.flatten.length ≤ 256 →
        Gives .mirrorPageDone s fun t =>
          let head := (s.mirrorHead + l.length) % ringEntries
          let from_ := ringBase + 32 * s.mirrorHead
          let ahead := ringBase + 32 * ((head + 2048) % ringEntries)
          t.flashRead from_ l.flatten.length = l.flatten ∧ t.fld Reg.bbxFlash Fld.bbxFlashHead = head ∧
          t.fld Reg.bbxFlash Fld.bbxFlashHeadSeq = fieldAt (l.getLastD []) 8 4 ∧
          (∀ y, (y < from_ ∨ from_ + l.flatten.length ≤ y) → t.flashRead y 1 =
            if head % 2048 = 0 ∧ y / 65536 = ahead / 65536 then [erasedByte] else s.flashRead y 1) ∧
          t = { s with regs := t.regs, flash := t.flash, mirror := { m with programming := none }, flashOp := goesOn } ∧
          RegsKept s t [Reg.bbxFlash]) ∧
      (s.flashOff = true →
        Leaves .mirrorPageDone s { s with mirror := { m with programming := none }, flashOp := goesOn })) ∧
    (m.programming = none → Leaves .mirrorPageDone s s) ∧
    (s.hostOk 0 = true → frozen s = false → Gives .freeze s fun t => frozen t = true ∧ cause t = 4 ∧
      t.reg Reg.bbxFreezeAt = s.now % 2 ^ 64 ∧ t = { s with regs := t.regs, mirror := t.mirror }) ∧
    (s.hostOk 0 = false ∨ frozen s = true → Leaves .freeze s s) ∧
    (s.hostOk 0 = true → frozen s = true → Gives .thaw s fun t => frozen t = false ∧ cause t = 0 ∧
      t = { s with regs := t.regs, mirror := t.mirror }) ∧
    (s.hostOk 0 = false ∨ frozen s = false → Leaves .thaw s s) ∧
    (s.power.pwrOk = true → s.power.inReset = false → s.warned = false → Gives .pwrWarnAssert s fun t =>
      t.power = { s.power with warnAt := some s.now } ∧ t.flag Reg.pwrStatus Fld.pwrStatusWarnIn = true ∧ frozen t = true ∧
        (frozen s = false → cause t = 3 ∧ t.reg Reg.bbxFreezeAt = s.now % 2 ^ 64) ∧ t.phase = s.phase ∧ t.cores = s.cores) ∧
    (s.power.pwrOk = false ∨ s.power.inReset = true ∨ s.warned = true → Leaves .pwrWarnAssert s s) ∧
    (s.warned = true → Gives .pwrWarnNRise s fun t => t.flag Reg.pwrStatus Fld.pwrStatusWarnIn = false ∧ frozen t = frozen s ∧
        t = { s with regs := t.regs, power := { s.power with warnAt := none } } ∧ RegsKept s t [Reg.pwrStatus]) ∧
    (s.warned = false → Leaves .pwrWarnNRise s s)

/-! Power, start-up and management. -/

/-- The power commands: VIN_QUALIFIED begins the rail sequence, each RAIL_REGULATED starts the next rail and the last asserts PWR_OK, a failure turns all off and RAIL_RETRY
tries again once (R365); RESET_RELEASE starts the Show Clock at 0 with PHASE 1 and a new challenge (R366); RST_N_ASSERT, REBOOT with 0xB007 by act 0 and VIN_LOSS leave registers and
memories as reset gives them and keep the fuses and the flash (R367); THROTTLE_ADJUST shows the averages and the state that k asks for (R388). In every other case these commands leave the module as it is. -/
def Obligations.PowerCommandsMoveTheRailsAndReset : Prop :=
  ∀ (s : State) (order v mv ma w1 w100 k : Nat), k < 4 →
    let p := s.power
    let pst (t : State) : Nat := t.fld Reg.pwrStatus Fld.pwrStatusState
    let pwr (t : State) (q : Power) : Prop := t = { s with regs := t.regs, power := q } ∧ RegsKept s t [Reg.pwrStatus]
    let cleared (t : State) : Prop := t.now = 0 ∧ t.near = [] ∧ t.die = [] ∧ t.cores = [] ∧ t.queues = [] ∧ t.ports = [] ∧
      t.buckets = [] ∧ t.sems = [] ∧ t.flash = s.flash ∧ t.fuse = s.fuse ∧ t.power.inReset = true ∧ t.phase = 0 ∧
      t.out = s.out ∧ t.host = s.host ∧ t = { State.reset with
        fuse := s.fuse, flash := s.flash, host := s.host, far := s.far, farPoison := s.farPoison, out := s.out,
        free := s.free, pending := s.pending, power := t.power, regs := t.regs }
    let trying := p.vinOk = true ∧ p.running = false ∧ p.pwrOk = false ∧ p.failures = 1 ∧ p.stage = 0
    (p.vinOk = false → Gives .vinQualified s fun t =>
      pst t = 1 ∧ pwr t { p with vinOk := true, failures := 0, running := true, stage := 1 }) ∧
    (p.vinOk = true → Leaves .vinQualified s s) ∧
    (p.running = true → p.stage = order → order < 6 →
      Leaves (.railRegulated order) s { s with power := { p with stage := order + 1 } }) ∧
    (p.running = true → p.stage = order → 6 ≤ order → Gives (.railRegulated order) s fun t =>
      pst t = 2 ∧ pwr t { p with running := false, pwrOk := true }) ∧
    (p.running = false ∨ p.stage ≠ order → Leaves (.railRegulated order) s s) ∧
    (p.running = true → Leaves .railSequenceFail s
      { s with power := { p with running := false, stage := 0, failures := p.failures + 1 } }) ∧
    (p.running = false → Leaves .railSequenceFail s s) ∧
    (trying → Gives .railRetry s fun t => pst t = 1 ∧ pwr t { p with running := true, stage := 1 }) ∧
    (¬trying → Leaves .railRetry s s) ∧
    (Gives .vinLoss s fun t => cleared t ∧ t.regs = [] ∧
      t.power = { p with vinOk := false, stage := 0, running := false, failures := 0, pwrOk := false, inReset := true
                         halted := false, cappedSince := none, warnAt := none }) ∧
    (Gives .rstNAssert s fun t => cleared t ∧ (p.pwrOk = true → t.regs = []) ∧
      (p.pwrOk = false → pst t = pst s ∧ ∀ y, y ≠ Reg.pwrStatus → t.reg y = resetReg s.fuse y) ∧
      t.power = { p with rstN := false, inReset := true, halted := false, cappedSince := none, warnAt := none }) ∧
    (s.hostOk 0 = true → v % 65536 = 0xB007 → Gives (.reboot v) s fun t => cleared t ∧ t.regs = [] ∧
      t.power = { p with rstN := true, inReset := true, halted := false, cappedSince := none, warnAt := none }) ∧
    (s.hostOk 0 = false ∨ v % 65536 ≠ 0xB007 → Leaves (.reboot v) s s) ∧
    (p.inReset = true → p.pwrOk = true → Gives .resetRelease s fun t => t.now = 0 ∧ t.alive = true ∧ t.phase = 1 ∧
      t.flag Reg.topState Fld.topStateXlinkOk = true ∧ (∀ i, i < 4 →
        t.reg (Reg.prbChallenge i) = bits (Config.nonce s.free).toNat (64 * i) 64) ∧
      t = { s with regs := t.regs, now := 0, power := { p with rstN := true, inReset := false }, free := t.free } ∧
      RegsKept s t (Reg.topState :: (List.range 4).map Reg.prbChallenge)) ∧
    (p.inReset = false ∨ p.pwrOk = false → Leaves .resetRelease s s) ∧
    (s.alive = true →
      let capped := if k ≠ 0 ∨ pst s ≠ 3 then none else p.cappedSince.or (some s.now)
      let ends := ∃ since, p.cappedSince = some since ∧ since + 100000000 ≤ s.now
      Gives (.throttleAdjust mv ma w1 w100 k) s fun t =>
      t.fld Reg.pwrInput Fld.pwrInputMv = mv % 2 ^ 32 ∧ t.fld Reg.pwrInput Fld.pwrInputMa = ma % 2 ^ 32 ∧
        t.fld Reg.pwrPower Fld.pwrPowerWatts1ms = w1 % 2 ^ 16 ∧ t.fld Reg.pwrPower Fld.pwrPowerWatts100ms = w100 % 2 ^ 16 ∧
        t.fld Reg.pwrPower Fld.pwrPowerPeak = max w1 (s.fld Reg.pwrPower Fld.pwrPowerPeak) % 2 ^ 16 ∧
        t.fld Reg.pwrEnergy Fld.pwrEnergyMj = (s.fld Reg.pwrEnergy Fld.pwrEnergyMj + w1) % 2 ^ 64 ∧
        t.fld Reg.pwrStatus Fld.pwrStatusThrottleK = k ∧ (k ≠ 0 → pst t = 3) ∧ (k = 0 → pst s ≠ 3 → pst t = pst s) ∧
        (k = 0 → pst s = 3 → (ends → pst t = 2) ∧ (¬ends → pst t = 3)) ∧
        (k ≠ 0 → t.power = { p with cappedSince := none }) ∧ (k = 0 → pst s ≠ 3 → t.power = p) ∧
        (k = 0 → pst s = 3 → (ends → t.power = { p with cappedSince := none }) ∧ (¬ends → t.power = { p with cappedSince := capped })) ∧
        t = { s with regs := t.regs, power := t.power } ∧
        RegsKept s t [Reg.pwrInput, Reg.pwrPower, Reg.pwrEnergy, Reg.pwrStatus]) ∧
    (s.alive = false → Leaves (.throttleAdjust mv ma w1 w100 k) s s)

/-- Start-up goes from PHASE 1 to 2 with the firmware bank that boots (R370), on to 3 with a valid Playbill slot, that of the higher SEQ, A when they are equal, and stays in
2 without one (R374 to R376); to 4 when the stacks have trained, the stacks that did not being lost, unless a far window reaches beyond its port's device (R377, R405); to 5 after the self-test,
which fences every core that failed with cause 4 and loses every stack that failed (R378, R379), the module being lost where a die cannot run on; and to 6 when the ports are up and the time of day is
found, or 60 s after it is not (R380, R381). In another phase, and while boundary scan has halted start-up, each of these commands leaves the module as it is. -/
def Obligations.StartUpPhasesFollow : Prop :=
  ∀ (s : State) (errA errB : Bool) (far : List FarTrain) (trained : BitVec 32) (cores failed : List TestFail),
    (∀ f ∈ far, f.port < 4) → (∀ f ∈ cores, f.unit < 208) → (∀ f ∈ failed, f.unit < 32) →
    let starting (n : Nat) : Prop := s.alive = true ∧ s.power.halted = false ∧ s.phase = n
    let codeA := s.slotCode 0 errA
    let codeB := s.slotCode 1 errB
    let errors (t : State) : Prop :=
      t.fld Reg.bootStatus Fld.bootStatusPbErrA = codeA % 16 ∧ t.fld Reg.bootStatus Fld.bootStatusPbErrB = codeB % 16
    let selects : Prop := starting 2 ∧ s.flag Reg.bootStatus Fld.bootStatusFwOk = true ∧ s.slotInUse = 0 ∧
      s.fld Reg.bootStatus Fld.bootStatusPbErrA = 0
    let slot := if codeB ≠ 0 then 0 else if codeA ≠ 0 then 1 else if s.slotSeq 0 < s.slotSeq 1 then 1 else 0
    let fits (w : Nat × Nat × Nat) : Prop := s.farBonded w.1 = true ∧ ∃ f, far.find? (fun g => g.port = w.1) = some f ∧
      f.deviceOk = true ∧ w.2.1 + w.2.2 ≤ min f.capGib 8192
    let ready (t : State) : Prop := t.phase = 6 ∧ t.phaseAt = s.uptime ∧ t.now = s.now ∧ t.cores = s.cores ∧ t.power = s.power ∧
      t.fld Reg.bootTimes Fld.bootTimesReadyMs = s.sinceReset % 2 ^ 32 ∧
      t.flag Reg.netStatus Fld.netStatusWarden = decide (s.self = s.primary)
    let late : Prop := s.phaseAt + 60000000000 < s.uptime
    (starting 1 → Gives .firmwareVerify s fun t => t.phase = 2 ∧
      (∀ b, s.bootBank = some b → t.flag Reg.bootStatus Fld.bootStatusFwOk = true ∧
        t.fld Reg.bootStatus Fld.bootStatusFwBank = b % 2) ∧
      (s.bootBank = none → t.reg Reg.bootStatus = s.reg Reg.bootStatus) ∧
      t = { s with regs := t.regs, phaseAt := s.uptime } ∧ RegsKept s t [Reg.topState, Reg.bootStatus]) ∧
    (¬starting 1 → Leaves .firmwareVerify s s) ∧
    (selects → Gives (.playbillSelect errA errB) s fun t =>
        (codeA ≠ 0 → codeB ≠ 0 → t.phase = 2 ∧ errors t ∧ OnlyRegs s t [Reg.bootStatus]) ∧
        (codeA = 0 ∨ codeB = 0 → t.phase = 3 ∧ t.slotInUse = slot + 1 ∧
          t.fld Reg.bootStatus Fld.bootStatusPbSeq = s.slotSeq slot % 2 ^ 32 ∧ t.phaseAt = s.uptime ∧
          t.mirror.active = true ∧ t.flash = s.flash)) ∧
    (¬selects → Leaves (.playbillSelect errA errB) s s) ∧
    (starting 3 → Gives (.stackTrainingComplete trained far) s fun t => (t.phase = 4 ∨ t.phase = 0xF) ∧
      (∀ i, i < 32 → trained.getLsbD i = false → t.stackUp i = false) ∧
      t.fld Reg.bootTimes Fld.bootTimesTrainMs = s.sinceReset % 2 ^ 32 ∧ t.near = s.near ∧
      (trained = BitVec.allOnes 32 → t.fld Reg.memStackOk Fld.memStackOkMap = 2 ^ 32 - 1 ∧
        ((∀ w ∈ s.farWindows, fits w) → t.phase = 4 ∧ t.phaseAt = s.uptime ∧ BytesKept s t))) ∧
    (¬starting 3 → Leaves (.stackTrainingComplete trained far) s s) ∧
    (starting 4 → Gives (.selfTestComplete cores failed) s fun t => (t.phase = 5 ∨ t.phase = 0xF) ∧
      (cores = [] → failed = [] → s.headline = 0 → t.phase = 5 ∧ t.phaseAt = s.uptime) ∧ t.near = [] ∧ t.nearPoison = [] ∧
      (∀ f ∈ failed, t.stackUp f.unit = false) ∧
      ∀ f ∈ cores, s.coreState f.unit ≠ 0 → s.coreState f.unit ≠ 4 →
        t.coreState f.unit = 4 ∧ t.fld (Reg.netCore f.unit) Fld.netCoreCause = 4) ∧
    (¬starting 4 → Leaves (.selfTestComplete cores failed) s s) ∧
    (starting 5 → s.portsUp = true → s.timeFound = true → Gives .linkBringupComplete s ready) ∧
    (¬(starting 5 ∧ s.portsUp = true ∧ s.timeFound = true) → Leaves .linkBringupComplete s s) ∧
    (starting 5 → late → s.timeFound = false → Gives .timeWaitTimeout s fun t => ready t ∧
      t.flag Reg.sckStatus Fld.sckStatusTimeSet = false ∧ t.flag Reg.sckStatus Fld.sckStatusHoldover = true) ∧
    (¬(starting 5 ∧ late ∧ s.timeFound = false) → Leaves .timeWaitTimeout s s)

/-- The management port, while PWR_OK stands: SET_ENDPOINT_ID, PLDM_REQUEST and the firmware-update commands have their effect when the packet's PEC is right, and
only count a drop when it is wrong; without PWR_OK nothing answers (R394, R395). UPDATE_IR with an instruction that drives pins loses a ready module and halts an earlier start-up; no other instruction has an
effect (R397). SUBMIT reports the token's first failure, unlocks the probes for a token that has none, and draws a new challenge; RELOCK and UNLOCK_EXPIRY lock them and clear their selections (R398). Where the
update, the function or the lock state is not the one that a command needs, it leaves the module as it is. -/
def Obligations.ManagementAndProbeCommands : Prop :=
  ∀ (s : State) (eid c off die : Nat) (m : PldmMsg) (data : Bytes) (i : TapInstr) (pec : Bool), c < 4 → die < 10 →
    let drop (x : Instr) : Prop := Gives x s fun t => OnlyRegs s t [Reg.mgtErr] ∧
      t.fld Reg.mgtErr Fld.mgtErrPecDrops = min (s.fld Reg.mgtErr Fld.mgtErrPecDrops + 1) 65535
    let updates (t : State) (u : Option Nat) : Prop := t.fld Reg.mgtSmb Fld.mgtSmbComponent = u.getD 0 ∧
      t.flag Reg.mgtSmb Fld.mgtSmbUpdate = u.isSome ∧ t = { s with regs := t.regs, update := u } ∧ RegsKept s t [Reg.mgtSmb]
    let range := areaRange (s.updateArea c)
    let writes : Prop := s.update = some c ∧ off + data.length ≤ range.2 ∧ s.flashOff = false
    let passes : Bool := if c = 1 then s.bankOk (s.updateArea c) else s.slotCodes (s.updateArea c - 2) = []
    let unlocked (t : State) : Bool := t.flag Reg.prbStatus Fld.prbStatusUnlocked
    let locks (x : Instr) : Prop := Gives x s fun t => unlocked t = false ∧ (∀ k, k < 8 → t.reg (Reg.prbSel k) = 0) ∧
      t = { s with regs := t.regs, mirror := t.mirror }
    let act0 : Prop := s.hostOk 0 = true ∧ s.started = true
    (s.power.pwrOk = true →
      drop (.setEndpointId eid false) ∧ drop (.pldmRequest m false) ∧ drop (.requestUpdate c false) ∧
        drop (.componentImageWrite c off data false) ∧ drop (.activateFirmware false) ∧ drop (.cancelUpdate false) ∧
      (Gives (.setEndpointId eid true) s fun t => t.fld Reg.mgtSmb Fld.mgtSmbEid = eid % 256 ∧ OnlyRegs s t [Reg.mgtSmb]) ∧
      Leaves (.pldmRequest m true) s { s with out := s.out ++ [.pldm (s.pldmAnswer m)] } ∧
      (s.update = none → (c = 1 ∨ c = 2) → Gives (.requestUpdate c true) s fun t => updates t (some c)) ∧
      (s.update ≠ none ∨ c = 0 ∨ c = 3 → Leaves (.requestUpdate c true) s s) ∧
      (writes → MemoriesCanonical s → Gives (.componentImageWrite c off data true) s fun t =>
          t.flashRead (range.1 + off) data.length = data ∧ t = { s with flash := t.flash } ∧
          ∀ y, (y < range.1 + off ∨ range.1 + off + data.length ≤ y) → t.flashRead y 1 = s.flashRead y 1) ∧
      (¬writes → Leaves (.componentImageWrite c off data true) s s) ∧
      (s.update = some c → Leaves .verifyComplete s { s with out := s.out ++ [.pldm [if passes then 0 else 1]] }) ∧
      (s.update = none → Leaves .verifyComplete s s ∧ Leaves (.activateFirmware true) s s ∧ Leaves (.cancelUpdate true) s s) ∧
      (s.update ≠ none → (Gives (.activateFirmware true) s fun t => updates t none) ∧
        Gives (.cancelUpdate true) s fun t => updates t none)) ∧
    (s.power.pwrOk = false → Leaves (.setEndpointId eid pec) s s ∧ Leaves (.pldmRequest m pec) s s ∧
      Leaves (.requestUpdate c pec) s s ∧ Leaves (.componentImageWrite c off data pec) s s ∧ Leaves .verifyComplete s s ∧
      Leaves (.activateFirmware pec) s s ∧ Leaves (.cancelUpdate pec) s s) ∧
    (drivesPins i = false ∨ s.alive = false ∨ 6 < s.phase → Leaves (.updateIr die i) s s) ∧
    (drivesPins i = true → s.alive = true → s.phase = 6 → Gives (.updateIr die i) s fun t => t.phase = 0xF ∧
      t.flag Reg.netStatus Fld.netStatusLost = true ∧ (∀ q ∈ s.createdQueues, t.qState q = 1) ∧
      ∀ y z, z < 2 → Sparse.get? s.cores y ≠ none → (t.ctx y z).state = .halted) ∧
    (drivesPins i = true → s.alive = true → s.phase < 6 →
      Leaves (.updateIr die i) s { s with power := { s.power with halted := true } }) ∧
    (act0 → Gives .submit s fun t =>
      t.fld Reg.prbStatus Fld.prbStatusFail = s.tokenFail ∧ unlocked t = (unlocked s || decide (s.tokenFail = 0)) ∧
        (s.tokenFail = 0 → t.reg Reg.prbExpiry = fieldAt s.token 48 8) ∧
        (s.tokenFail ≠ 0 → t.reg Reg.prbExpiry = s.reg Reg.prbExpiry) ∧
        (∀ k, k < 4 → t.reg (Reg.prbChallenge k) = bits (Config.nonce s.free).toNat (64 * k) 64) ∧
        t = { s with regs := t.regs, mirror := t.mirror, free := t.free }) ∧
    (¬act0 → Leaves .submit s s) ∧
    (act0 → unlocked s = true → locks .relock) ∧ (¬act0 ∨ unlocked s = false → Leaves .relock s s) ∧
    (s.alive = true → s.reg Reg.prbExpiry < s.now → unlocked s = true → locks .unlockExpiry) ∧
    (s.alive = false ∨ s.now ≤ s.reg Reg.prbExpiry ∨ unlocked s = false → Leaves .unlockExpiry s s)

/-! The whole machine. -/

/-- A step with a command at the front of the queue is that command run with the rest of the queue, whatever the command and the
state; with no command waiting, a module out of reset counts one tick of the Show Clock, modulo 2^64, and one in reset or without
power does nothing. That the tick is what the step does on an empty queue is the model's choice (log 2). By the next tick the stack controllers have answered the near requests that they took (the
model's choice, log 109), an optimizer engine has updated a half whose moments it has (log 165), and the end of the cycle retires a displaced table generation without references (R272); only registers change beside. No row of the opcode table
gives bits, so no word spells a command and withFetchWord leaves the state as it is. -/
def Obligations.StepRunsFrontCommand : Prop :=
  (∀ (c : Instr) (rest : List Instr) (s : State), s.pending = c :: rest → step s = exec c { s with pending := rest }) ∧
  (∀ s : State, s.pending = [] → s.alive = false → step s = .next s) ∧
  (∀ s : State, s.pending = [] → s.alive = true → ∃ t, step s = .next t ∧ t.now = (s.now + 1) % 2 ^ 64 ∧ t.phase = s.phase ∧
    (∀ i, i < 32 → t.fld (Reg.memStk1 i) Fld.memStk1Outstanding = 0) ∧
    t.buckets = s.buckets.map (fun p => (p.1, { p.2 with computing := p.2.computing.filter p.2.reads })) ∧
    (∀ n b, (s.tsSlot n).prev = some b → s.tsRefs n b.gen = 0 → (∀ c ∈ (s.tsSlot n).by_, c.1 ≠ s.now) →
      (t.tsSlot n).prev = none) ∧
    (∀ n b, (s.tsSlot n).prev = some b → s.tsRefs n b.gen ≠ 0 → t.tsSlot n = s.tsSlot n) ∧
    ((∀ n, (s.tsSlot n).prev = none) → t = { s with regs := t.regs, now := t.now, buckets := t.buckets })) ∧
  ∀ (s : State) (nbits w : Nat), decodeTableWord nbits w = none ∧ s.withFetchWord nbits w = s

/-- Right after reset every register but the NET.CORE_n that shows neither a fuse nor what the module holds elsewhere reads the Reset
column of its table in each of its fields (R8; a field to which the spec gives no reset value reads 0, log 5), NET.CORE_n reads the state that the fuses give core n (Table 12.10; the fuses are
those of log 3), the PHASE is 0, every queue is DISABLED (R234) and every port DISABLED (R314), no memory lists a byte, the Show
Clock stands at 0, the module is still held in reset (log 6), and no command waits. -/
def Obligations.ResetLeavesTheStatedValues : Prop :=
  let s := State.reset
  (∀ k r, findReg k = some r → r.base ≠ Reg.netCore 0 → s.shown k r = none → ∀ f ∈ r.fields, s.fld k f.fld = f.reset) ∧
  (∀ n, n < 208 → s.coreState n = if s.fuse.enabled.getLsbD n then 3 else if s.fuse.spares.getLsbD n then 1 else 0) ∧
  s.phase = 0 ∧ (∀ q, q < 65536 → s.qState q = 0 ∧ s.queue q = Queue.reset) ∧ (∀ p, p < 8 → s.portState p = 0) ∧
  MemoriesCanonical s ∧ TablesCanonical s ∧ (∀ sp a n, s.readMem sp a n = List.replicate n emptyByte) ∧
  (∀ a n, s.flashRead a n = List.replicate n erasedByte) ∧ (∀ n, s.core n = Core.reset) ∧ s.now = 0 ∧
  s.power.inReset = true ∧ s.pending = []

/-- Every command whose units exist completes, whatever the state, and one that names a unit outside the numbering (R18, R20, R168,
R201, R218, R219, R223, R276, R277) faults by name; no step changes the fuses (R1, R3), and every step takes the front command and
nothing else from the queue. -/
def Obligations.EveryCommandOfExistingUnitsCompletes : Prop :=
  (∀ (c : Instr) (s : State), c.wf = true → Gives c s fun t => t.fuse = s.fuse ∧ t.pending = s.pending) ∧
  (∀ (c : Instr) (s : State), c.wf = false → exec c s = .fault .noSuchUnit) ∧
  ∀ s t : State, Steps s t → t.fuse = s.fuse ∧ t.pending = s.pending.tail

/-- An invariant of every step: near memory, the far windows, the dies' own memories, host memory, the flash and every stage buffer keep
their canonical form, addresses strictly rising and no byte listed that an unlisted address reads as. -/
def Obligations.EveryStepKeepsMemoriesCanonical : Prop :=
  ∀ s t : State, MemoriesCanonical s → Steps s t → MemoriesCanonical t

/-- An invariant of every step: each core's accumulator and the marks on its entries keep their canonical form, and the buckets and the
counts of the rails' samples keep their rising order, which the statements on them take as a premise. -/
def Obligations.EveryStepKeepsTablesCanonical : Prop :=
  ∀ s t : State, TablesCanonical s → Steps s t → TablesCanonical t
end

