-- ==== Sys2Proof/Laws/Bits.lean ====
section
/-! SUPPORT. The laws of bit fields and byte order: a field that was put reads back, the other bits stay, and a
number's bytes spell the number. -/

namespace Sys2Proof.Machine

/-- A number with a field replaced, as the three parts it is made of. -/
theorem putBits_eq (x lo w v : Nat) :
    putBits x lo w v = 2 ^ lo * (2 ^ w * (x / 2 ^ (lo + w)) + v % 2 ^ w) + x % 2 ^ lo := by
  have h1 : x = 2 ^ lo * (2 ^ w * (x / 2 ^ (lo + w)) + x / 2 ^ lo % 2 ^ w) + x % 2 ^ lo := by
    have e : x / 2 ^ (lo + w) = x / 2 ^ lo / 2 ^ w := by rw [Nat.pow_add, Nat.div_div_eq_div_mul]
    rw [e, Nat.div_add_mod, Nat.div_add_mod]
  have h2 : (x >>> lo % 2 ^ w) <<< lo = 2 ^ lo * (x / 2 ^ lo % 2 ^ w) := by
    rw [Nat.shiftLeft_eq, Nat.shiftRight_eq_div_pow, Nat.mul_comm]
  have h3 : (v % 2 ^ w) <<< lo = 2 ^ lo * (v % 2 ^ w) := by rw [Nat.shiftLeft_eq, Nat.mul_comm]
  rw [putBits, h2, h3]
  generalize hA : 2 ^ w * (x / 2 ^ (lo + w)) = A at h1 ⊢
  generalize hB : x / 2 ^ lo % 2 ^ w = B at h1 ⊢
  generalize hr : x % 2 ^ lo = r at h1 ⊢
  rw [Nat.mul_add] at h1 ⊢
  omega

/-- The bits of a number with a field replaced. -/
theorem testBit_putBits (x lo w v i : Nat) :
    (putBits x lo w v).testBit i = if lo ≤ i ∧ i < lo + w then v.testBit (i - lo) else x.testBit i := by
  have hv : v % 2 ^ w < 2 ^ w := Nat.mod_lt _ (Nat.two_pow_pos w)
  have hr : x % 2 ^ lo < 2 ^ lo := Nat.mod_lt _ (Nat.two_pow_pos lo)
  rw [putBits_eq, Nat.testBit_two_pow_mul_add _ hr]
  by_cases h1 : i < lo
  · have h2 : ¬ (lo ≤ i ∧ i < lo + w) := by omega
    simp [h1, h2, Nat.testBit_mod_two_pow]
  · rw [if_neg h1, Nat.testBit_two_pow_mul_add _ hv]
    by_cases h2 : i < lo + w
    · have h3 : i - lo < w := by omega
      have h4 : lo ≤ i ∧ i < lo + w := by omega
      simp [h3, h4, Nat.testBit_mod_two_pow]
    · have h3 : ¬ i - lo < w := by omega
      have h4 : ¬ (lo ≤ i ∧ i < lo + w) := by omega
      have h5 : i - lo - w + (lo + w) = i := by omega
      rw [if_neg h3, if_neg h4, Nat.testBit_div_two_pow, h5]

/-- The bits of a field. -/
theorem testBit_bits (x lo w i : Nat) : (bits x lo w).testBit i = (decide (i < w) && x.testBit (lo + i)) := by
  simp [bits, Nat.testBit_mod_two_pow, Nat.testBit_shiftRight]

/-- A field that was put reads back. -/
@[simp] theorem bits_putBits_same (x lo w v : Nat) : bits (putBits x lo w v) lo w = v % 2 ^ w := by
  apply Nat.eq_of_testBit_eq
  intro i
  rw [testBit_bits, testBit_putBits, Nat.testBit_mod_two_pow]
  by_cases h : i < w
  · have h1 : lo ≤ lo + i ∧ lo + i < lo + w := by omega
    simp [h, h1]
  · simp [h]

/-- Another field stays. -/
theorem bits_putBits_other (x lo w v lo' w' : Nat) (h : lo' + w' ≤ lo ∨ lo + w ≤ lo') :
    bits (putBits x lo w v) lo' w' = bits x lo' w' := by
  apply Nat.eq_of_testBit_eq
  intro i
  rw [testBit_bits, testBit_bits, testBit_putBits]
  by_cases hi : i < w'
  · have h1 : ¬ (lo ≤ lo' + i ∧ lo' + i < lo + w) := by omega
    simp [h1]
  · simp [hi]

/-- A number with a field inside `n` bits replaced stays within them. -/
theorem putBits_lt {x lo w v n : Nat} (hx : x < 2 ^ n) (hf : lo + w ≤ n) : putBits x lo w v < 2 ^ n := by
  apply Nat.lt_pow_two_of_testBit
  intro i hi
  have h1 : ¬ (lo ≤ i ∧ i < lo + w) := by omega
  rw [testBit_putBits, if_neg h1]
  exact Nat.testBit_lt_two_pow (Nat.lt_of_lt_of_le hx (Nat.pow_le_pow_right (by decide) hi))

/-- A field is below its bound. -/
theorem bits_lt (x lo w : Nat) : bits x lo w < 2 ^ w := Nat.mod_lt _ (Nat.two_pow_pos w)

/-- A whole small number is its own field. -/
theorem bits_zero_of_lt {x w : Nat} (h : x < 2 ^ w) : bits x 0 w = x := by
  simp [bits, Nat.mod_eq_of_lt h]

/-- The number of bytes that spell a number. -/
@[simp] theorem leBytes_length : ∀ n v : Nat, (leBytes n v).length = n
  | 0, _ => rfl
  | n + 1, v => by simp [leBytes, leBytes_length n]

/-- A number's bytes spell it, as far as they reach. -/
theorem ofLe_leBytes : ∀ n v : Nat, ofLe (leBytes n v) = v % 256 ^ n
  | 0, v => by simp [leBytes, ofLe, Nat.mod_one]
  | n + 1, v => by
    have h : (BitVec.ofNat 8 v).toNat = v % 256 := by simp
    rw [leBytes, ofLe, ofLe_leBytes n, h, Nat.pow_succ, Nat.mul_comm (256 ^ n) 256, Nat.mod_mul]

/-- Bytes are the bytes of the number they spell. -/
theorem leBytes_ofLe : ∀ bs : Bytes, leBytes bs.length (ofLe bs) = bs
  | [] => rfl
  | b :: bs => by
    have hb : b.toNat < 256 := b.isLt
    have h1 : BitVec.ofNat 8 (b.toNat + 256 * ofLe bs) = b := by
      apply BitVec.eq_of_toNat_eq
      simp only [BitVec.toNat_ofNat]
      omega
    have h2 : (b.toNat + 256 * ofLe bs) / 256 = ofLe bs := by omega
    simp [leBytes, ofLe, h1, h2, leBytes_ofLe bs]

/-- The number that bytes spell is below its bound. -/
theorem ofLe_lt : ∀ bs : Bytes, ofLe bs < 256 ^ bs.length
  | [] => by simp [ofLe]
  | b :: bs => by
    have hb : b.toNat < 256 := b.isLt
    have h := ofLe_lt bs
    rw [ofLe, List.length_cons, Nat.pow_succ]
    omega

/-- A list numbered from a place has the list's length. -/
@[simp] theorem indexed_length {α : Type} : ∀ (i : Nat) (l : List α), (indexed i l).length = l.length
  | _, [] => rfl
  | i, _ :: as => by simp [indexed, indexed_length (i + 1) as]

/-- Each element of a numbered list stands at its number. -/
theorem indexed_getElem? {α : Type} :
    ∀ (i : Nat) (l : List α) (k : Nat), (indexed i l)[k]? = (l[k]?).map fun a => (i + k, a)
  | _, [], k => by simp [indexed]
  | i, a :: as, 0 => by simp [indexed]
  | i, a :: as, k + 1 => by
    have h : i + 1 + k = i + (k + 1) := by omega
    simp [indexed, indexed_getElem? (i + 1) as k, h]

end Sys2Proof.Machine
end

