-- ==== Sys2Proof/Laws/Sparse.lean ====
section
/-! SUPPORT. The laws of sparse maps: reading after writing, and the canonical form that every change keeps. -/

namespace Sys2Proof.Machine

variable {β : Type}

/-- Keys rising from a bound rise from any lower one. -/
theorem Sparse.rising_weaken {lo lo' : Nat} (hle : lo' ≤ lo) :
    ∀ {m : List (Nat × β)}, Sparse.rising (some lo) m = true → Sparse.rising (some lo') m = true
  | [], _ => rfl
  | (j, v) :: m, h => by
    simp only [Sparse.rising, Bool.and_eq_true, decide_eq_true_eq] at h ⊢
    exact ⟨by omega, h.2⟩

/-- Keys rising from a bound rise. -/
theorem Sparse.rising_none {lo : Nat} :
    ∀ {m : List (Nat × β)}, Sparse.rising (some lo) m = true → Sparse.rising none m = true
  | [], _ => rfl
  | (j, v) :: m, h => by
    simp only [Sparse.rising, Bool.and_eq_true, decide_eq_true_eq] at h ⊢
    exact ⟨trivial, h.2⟩

/-- A key at or below the bound is not listed. -/
theorem Sparse.get_below (d : β) {k : Nat} :
    ∀ {m : List (Nat × β)} {lo : Nat}, Sparse.rising (some lo) m = true → k ≤ lo → Sparse.get d m k = d
  | [], _, _, _ => rfl
  | (j, v) :: m, lo, h, hk => by
    simp only [Sparse.rising, Bool.and_eq_true, decide_eq_true_eq] at h
    have h1 : j ≠ k := by omega
    have h2 : k < j := by omega
    simp [Sparse.get, h1, h2]

/-- Reading the key that was written. -/
@[simp] theorem Sparse.get_put_same (d : β) (k : Nat) (v : β) :
    ∀ m : List (Nat × β), Sparse.get d (Sparse.put m k v) k = v
  | [] => by simp [Sparse.put, Sparse.get]
  | (j, u) :: m => by
    by_cases h1 : k < j
    · simp [Sparse.put, Sparse.get, h1]
    · by_cases h2 : k = j
      · simp [Sparse.put, Sparse.get, h2]
      · have h3 : ¬ j = k := fun h => h2 h.symm
        simp [Sparse.put, Sparse.get, h1, h2, h3, Sparse.get_put_same d k v m]

/-- Reading another key. -/
theorem Sparse.get_put_other (d : β) {k k' : Nat} (hne : k' ≠ k) (v : β) :
    ∀ m : List (Nat × β), Sparse.get d (Sparse.put m k v) k' = Sparse.get d m k'
  | [] => by
    have : ¬ k = k' := fun h => hne h.symm
    by_cases h : k' < k <;> simp [Sparse.put, Sparse.get, this, h]
  | (j, u) :: m => by
    have h0 : ¬ k = k' := fun h => hne h.symm
    by_cases h1 : k < j
    · by_cases h2 : k' < k
      · have h3 : ¬ j = k' := by omega
        have h4 : k' < j := by omega
        simp [Sparse.put, Sparse.get, h1, h0, h2, h3, h4]
      · simp [Sparse.put, Sparse.get, h1, h0, h2]
    · by_cases h2 : k = j
      · subst h2
        by_cases h3 : k' < k
        · simp [Sparse.put, Sparse.get, h0, h3]
        · simp [Sparse.put, Sparse.get, h0, h3]
      · by_cases h3 : j = k'
        · subst h3; simp [Sparse.put, Sparse.get, h1, h2]
        · by_cases h4 : k' < j
          · simp [Sparse.put, Sparse.get, h1, h2, h3, h4]
          · simp [Sparse.put, Sparse.get, h1, h2, h3, h4, Sparse.get_put_other d hne v m]

/-- Reading a map after one key was written. -/
theorem Sparse.get_put (d : β) (m : List (Nat × β)) (k k' : Nat) (v : β) :
    Sparse.get d (Sparse.put m k v) k' = if k' = k then v else Sparse.get d m k' := by
  by_cases h : k' = k
  · subst h; simp
  · simp [h, Sparse.get_put_other d h]

/-- Of two writes at a key the later stands. -/
@[simp] theorem Sparse.put_put (k : Nat) (v v' : β) :
    ∀ m : List (Nat × β), Sparse.put (Sparse.put m k v) k v' = Sparse.put m k v'
  | [] => by simp [Sparse.put]
  | (j, u) :: m => by
    by_cases h1 : k < j
    · simp [Sparse.put, h1]
    · by_cases h2 : k = j
      · simp [Sparse.put, h2]
      · simp [Sparse.put, h1, h2, Sparse.put_put k v v' m]

/-- The optional reading of the key that was written. -/
@[simp] theorem Sparse.getOpt_put_same (k : Nat) (v : β) :
    ∀ m : List (Nat × β), Sparse.get? (Sparse.put m k v) k = some v
  | [] => by simp [Sparse.put, Sparse.get?]
  | (j, u) :: m => by
    by_cases h1 : k < j
    · simp [Sparse.put, Sparse.get?, h1]
    · by_cases h2 : k = j
      · simp [Sparse.put, Sparse.get?, h2]
      · have h3 : ¬ j = k := fun h => h2 h.symm
        simp [Sparse.put, Sparse.get?, h1, h2, h3, Sparse.getOpt_put_same k v m]

/-- The optional reading of another key. -/
theorem Sparse.getOpt_put_other {k k' : Nat} (hne : k' ≠ k) (v : β) :
    ∀ m : List (Nat × β), Sparse.get? (Sparse.put m k v) k' = Sparse.get? m k'
  | [] => by
    have : ¬ k = k' := fun h => hne h.symm
    by_cases h : k' < k <;> simp [Sparse.put, Sparse.get?, this, h]
  | (j, u) :: m => by
    have h0 : ¬ k = k' := fun h => hne h.symm
    by_cases h1 : k < j
    · by_cases h2 : k' < k
      · have h3 : ¬ j = k' := by omega
        have h4 : k' < j := by omega
        simp [Sparse.put, Sparse.get?, h1, h0, h2, h3, h4]
      · simp [Sparse.put, Sparse.get?, h1, h0, h2]
    · by_cases h2 : k = j
      · subst h2
        by_cases h3 : k' < k
        · simp [Sparse.put, Sparse.get?, h0, h3]
        · simp [Sparse.put, Sparse.get?, h0, h3]
      · by_cases h3 : j = k'
        · subst h3; simp [Sparse.put, Sparse.get?, h1, h2]
        · by_cases h4 : k' < j
          · simp [Sparse.put, Sparse.get?, h1, h2, h3, h4]
          · simp [Sparse.put, Sparse.get?, h1, h2, h3, h4, Sparse.getOpt_put_other hne v m]

/-- Writing keeps keys rising from a bound below the written key. -/
theorem Sparse.rising_put_some (k : Nat) (v : β) :
    ∀ {m : List (Nat × β)} {lo : Nat}, Sparse.rising (some lo) m = true → lo < k →
      Sparse.rising (some lo) (Sparse.put m k v) = true
  | [], lo, _, hk => by simp [Sparse.put, Sparse.rising, hk]
  | (j, u) :: m, lo, h, hk => by
    simp only [Sparse.rising, Bool.and_eq_true, decide_eq_true_eq] at h
    by_cases h1 : k < j
    · simp [Sparse.put, Sparse.rising, h1, hk, h.2]
    · by_cases h2 : k = j
      · subst h2; simp [Sparse.put, Sparse.rising, hk, h.2]
      · have h3 : j < k := by omega
        simp [Sparse.put, Sparse.rising, h1, h2, h.1, Sparse.rising_put_some k v h.2 h3]

/-- Writing keeps keys rising. -/
theorem Sparse.rising_put (k : Nat) (v : β) :
    ∀ {m : List (Nat × β)}, Sparse.rising none m = true → Sparse.rising none (Sparse.put m k v) = true
  | [], _ => by simp [Sparse.put, Sparse.rising]
  | (j, u) :: m, h => by
    simp only [Sparse.rising, Bool.true_and] at h
    by_cases h1 : k < j
    · simp [Sparse.put, Sparse.rising, h1, h]
    · by_cases h2 : k = j
      · subst h2; simp [Sparse.put, Sparse.rising, h]
      · have h3 : j < k := by omega
        simp [Sparse.put, Sparse.rising, h1, h2, Sparse.rising_put_some k v h h3]

/-- A list without one of its keys rises from the bound. -/
theorem Sparse.rising_del_some (k : Nat) :
    ∀ {m : List (Nat × β)} {lo : Nat}, Sparse.rising (some lo) m = true →
      Sparse.rising (some lo) (Sparse.del m k) = true
  | [], _, _ => rfl
  | (j, u) :: m, lo, h => by
    simp only [Sparse.rising, Bool.and_eq_true, decide_eq_true_eq] at h
    by_cases h1 : j = k
    · simp only [Sparse.del, h1, if_true]
      exact Sparse.rising_weaken (by omega) h.2
    · simp [Sparse.del, h1, Sparse.rising, h.1, Sparse.rising_del_some k h.2]

/-- Taking a key out keeps keys rising. -/
theorem Sparse.rising_del (k : Nat) :
    ∀ {m : List (Nat × β)}, Sparse.rising none m = true → Sparse.rising none (Sparse.del m k) = true
  | [], _ => rfl
  | (j, u) :: m, h => by
    simp only [Sparse.rising, Bool.true_and] at h
    by_cases h1 : j = k
    · simp only [Sparse.del, h1, if_true]
      exact Sparse.rising_none h
    · simp [Sparse.del, h1, Sparse.rising, Sparse.rising_del_some k h]

/-- What a written list holds. -/
theorem Sparse.mem_put {k : Nat} {v : β} {p : Nat × β} :
    ∀ {m : List (Nat × β)}, p ∈ Sparse.put m k v → p = (k, v) ∨ p ∈ m
  | [], h => by simpa [Sparse.put] using h
  | (j, u) :: m, h => by
    by_cases h1 : k < j
    · simpa [Sparse.put, h1] using h
    · by_cases h2 : k = j
      · rw [Sparse.put, if_neg h1, if_pos h2] at h
        rcases List.mem_cons.mp h with h | h
        · exact .inl h
        · exact .inr (List.mem_cons_of_mem _ h)
      · rw [Sparse.put, if_neg h1, if_neg h2] at h
        rcases List.mem_cons.mp h with h | h
        · exact .inr (h ▸ List.mem_cons_self ..)
        · exact (Sparse.mem_put h).imp_right (List.mem_cons_of_mem _)

/-- What a list without a key holds. -/
theorem Sparse.mem_del {k : Nat} {p : Nat × β} :
    ∀ {m : List (Nat × β)}, p ∈ Sparse.del m k → p ∈ m
  | [], h => by simp [Sparse.del] at h
  | (j, u) :: m, h => by
    by_cases h1 : j = k
    · rw [Sparse.del, if_pos h1] at h
      exact List.mem_cons_of_mem _ h
    · rw [Sparse.del, if_neg h1] at h
      rcases List.mem_cons.mp h with h | h
      · exact h ▸ List.mem_cons_self ..
      · exact List.mem_cons_of_mem _ (Sparse.mem_del h)

/-- Reading a key that was taken out of a rising list. -/
theorem Sparse.get_del (d : β) (k k' : Nat) :
    ∀ {m : List (Nat × β)}, Sparse.rising none m = true →
      Sparse.get d (Sparse.del m k) k' = if k' = k then d else Sparse.get d m k'
  | [], _ => by simp [Sparse.del, Sparse.get]
  | (j, u) :: m, h => by
    simp only [Sparse.rising, Bool.true_and] at h
    by_cases h1 : j = k
    · subst h1
      by_cases h2 : k' = j
      · subst h2; simp [Sparse.del, Sparse.get_below d h (Nat.le_refl _)]
      · have h3 : ¬ j = k' := fun e => h2 e.symm
        by_cases h4 : k' < j
        · simp [Sparse.del, Sparse.get, h2, h3, h4, Sparse.get_below d h (Nat.le_of_lt h4)]
        · simp [Sparse.del, Sparse.get, h2, h3, h4]
    · have ih := Sparse.get_del d k k' (Sparse.rising_none h)
      by_cases h2 : j = k'
      · have h3 : ¬ k' = k := fun e => h1 (h2.trans e)
        simp [Sparse.del, Sparse.get, h1, h2, h3]
      · by_cases h4 : k' < j
        · simp [Sparse.del, Sparse.get, h1, h2, h4]
        · simp [Sparse.del, Sparse.get, h1, h2, h4, ih]

section Memory
variable [DecidableEq β]

/-- The canonical form, spelled out. -/
theorem Sparse.wf_iff {d : β} {m : List (Nat × β)} :
    Sparse.wf d m = true ↔ Sparse.rising none m = true ∧ ∀ p ∈ m, p.2 ≠ d := by
  simp [Sparse.wf]

/-- Writing keeps the canonical form. -/
theorem Sparse.wf_set {d : β} {m : List (Nat × β)} (h : Sparse.wf d m = true) (k : Nat) (v : β) :
    Sparse.wf d (Sparse.set d m k v) = true := by
  rw [Sparse.wf_iff] at h ⊢
  by_cases hv : v = d
  · rw [Sparse.set, if_pos hv]
    exact ⟨Sparse.rising_del k h.1, fun p hp => h.2 p (Sparse.mem_del hp)⟩
  · rw [Sparse.set, if_neg hv]
    refine ⟨Sparse.rising_put k v h.1, fun p hp => ?_⟩
    rcases Sparse.mem_put hp with rfl | hp
    · exact hv
    · exact h.2 p hp

/-- A read after a write to a canonical memory. -/
theorem Sparse.get_set {d : β} {m : List (Nat × β)} (h : Sparse.wf d m = true) (k k' : Nat) (v : β) :
    Sparse.get d (Sparse.set d m k v) k' = if k' = k then v else Sparse.get d m k' := by
  by_cases hv : v = d
  · rw [Sparse.set, if_pos hv, Sparse.get_del d k k' (Sparse.wf_iff.mp h).1, hv]
  · rw [Sparse.set, if_neg hv, Sparse.get_put]

/-- Clearing a range keeps the keys that remain rising. -/
theorem Sparse.rising_filter (f : Nat × β → Bool) :
    ∀ {m : List (Nat × β)} {lo : Nat}, Sparse.rising (some lo) m = true →
      Sparse.rising (some lo) (m.filter f) = true
  | [], _, _ => rfl
  | (j, u) :: m, lo, h => by
    simp only [Sparse.rising, Bool.and_eq_true, decide_eq_true_eq] at h
    by_cases h1 : f (j, u) = true
    · simp [List.filter, h1, Sparse.rising, h.1, Sparse.rising_filter f h.2]
    · have h2 := Sparse.rising_filter f h.2
      simp only [List.filter, h1]
      exact Sparse.rising_weaken (by omega) h2

/-- Clearing a range of a canonical memory keeps the form. -/
theorem Sparse.wf_clear {d : β} {m : List (Nat × β)} (h : Sparse.wf d m = true) (lo hi : Nat) :
    Sparse.wf d (Sparse.clear m lo hi) = true := by
  rw [Sparse.wf_iff] at h ⊢
  refine ⟨?_, fun p hp => h.2 p (List.mem_filter.mp hp).1⟩
  cases m with
  | nil => rfl
  | cons a m =>
    obtain ⟨j, u⟩ := a
    have hr : Sparse.rising (some j) m = true := by
      simpa [Sparse.rising] using h.1
    rw [Sparse.clear, List.filter]
    split
    · simpa [Sparse.rising] using Sparse.rising_filter _ hr
    · exact Sparse.rising_none (Sparse.rising_filter _ hr)

/-- Two canonical memories that read alike at every key are the same list. -/
theorem Sparse.ext_of_rising {d : β} :
    ∀ {m m' : List (Nat × β)}, Sparse.wf d m = true → Sparse.wf d m' = true →
      (∀ k, Sparse.get d m k = Sparse.get d m' k) → m = m'
  | [], [], _, _, _ => rfl
  | [], (j, u) :: m, _, h', e => by
    have := e j
    simp [Sparse.get] at this
    exact absurd this.symm ((Sparse.wf_iff.mp h').2 _ (List.mem_cons_self ..))
  | (j, u) :: m, [], h, _, e => by
    have := e j
    simp [Sparse.get] at this
    exact absurd this ((Sparse.wf_iff.mp h).2 _ (List.mem_cons_self ..))
  | (j, u) :: m, (j', u') :: m', h, h', e => by
    have hr := Sparse.wf_iff.mp h
    have hr' := Sparse.wf_iff.mp h'
    have hu := hr.2 _ (List.mem_cons_self ..)
    have hu' := hr'.2 _ (List.mem_cons_self ..)
    have hm : Sparse.rising (some j) m = true := by simpa [Sparse.rising] using hr.1
    have hm' : Sparse.rising (some j') m' = true := by simpa [Sparse.rising] using hr'.1
    have hj : j = j' := by
      rcases Nat.lt_trichotomy j j' with hlt | heq | hgt
      · have := e j
        have h1 : ¬ j' = j := by omega
        simp [Sparse.get, h1, hlt] at this
        exact absurd this hu
      · exact heq
      · have := e j'
        have h1 : ¬ j = j' := by omega
        simp [Sparse.get, h1, hgt] at this
        exact absurd this.symm hu'
    subst hj
    have hv : u = u' := by simpa [Sparse.get] using e j
    subst hv
    have wm : Sparse.wf d m = true :=
      Sparse.wf_iff.mpr ⟨Sparse.rising_none hm, fun p hp => hr.2 p (List.mem_cons_of_mem _ hp)⟩
    have wm' : Sparse.wf d m' = true :=
      Sparse.wf_iff.mpr ⟨Sparse.rising_none hm', fun p hp => hr'.2 p (List.mem_cons_of_mem _ hp)⟩
    have : m = m' := Sparse.ext_of_rising wm wm' fun k => by
      by_cases hk : k ≤ j
      · rw [Sparse.get_below d hm hk, Sparse.get_below d hm' hk]
      · have h1 : ¬ j = k := by omega
        have h2 : ¬ k < j := by omega
        simpa [Sparse.get, h1, h2] using e k
    rw [this]

end Memory

end Sys2Proof.Machine
end

