-- ==== Sys2Proof/Laws/State.lean ====
section
/-! SUPPORT. One lemma per field of the state for each of the updates that every operation is made of, so that no
proof unfolds a record update, and what the readings of registers, cores, contexts, queues and ports give after one. -/

namespace Sys2Proof.Machine

variable (s : State)

/-! `State.setReg` changes `regs` only. -/

@[simp] theorem State.setReg_fuse (k v : Nat) : (s.setReg k v).fuse = s.fuse := rfl
@[simp] theorem State.setReg_now (k v : Nat) : (s.setReg k v).now = s.now := rfl
@[simp] theorem State.setReg_regs (k v : Nat) : (s.setReg k v).regs = Sparse.put s.regs k (BitVec.ofNat 64 v) := rfl
@[simp] theorem State.setReg_near (k v : Nat) : (s.setReg k v).near = s.near := rfl
@[simp] theorem State.setReg_nearPoison (k v : Nat) : (s.setReg k v).nearPoison = s.nearPoison := rfl
@[simp] theorem State.setReg_die (k v : Nat) : (s.setReg k v).die = s.die := rfl
@[simp] theorem State.setReg_diePoison (k v : Nat) : (s.setReg k v).diePoison = s.diePoison := rfl
@[simp] theorem State.setReg_far (k v : Nat) : (s.setReg k v).far = s.far := rfl
@[simp] theorem State.setReg_farPoison (k v : Nat) : (s.setReg k v).farPoison = s.farPoison := rfl
@[simp] theorem State.setReg_farReqs (k v : Nat) : (s.setReg k v).farReqs = s.farReqs := rfl
@[simp] theorem State.setReg_farAsks (k v : Nat) : (s.setReg k v).farAsks = s.farAsks := rfl
@[simp] theorem State.setReg_farTimeouts (k v : Nat) : (s.setReg k v).farTimeouts = s.farTimeouts := rfl
@[simp] theorem State.setReg_host (k v : Nat) : (s.setReg k v).host = s.host := rfl
@[simp] theorem State.setReg_flash (k v : Nat) : (s.setReg k v).flash = s.flash := rfl
@[simp] theorem State.setReg_cores (k v : Nat) : (s.setReg k v).cores = s.cores := rfl
@[simp] theorem State.setReg_queues (k v : Nat) : (s.setReg k v).queues = s.queues := rfl
@[simp] theorem State.setReg_acts (k v : Nat) : (s.setReg k v).acts = s.acts := rfl
@[simp] theorem State.setReg_sems (k v : Nat) : (s.setReg k v).sems = s.sems := rfl
@[simp] theorem State.setReg_holds (k v : Nat) : (s.setReg k v).holds = s.holds := rfl
@[simp] theorem State.setReg_ts (k v : Nat) : (s.setReg k v).ts = s.ts := rfl
@[simp] theorem State.setReg_inputRr (k v : Nat) : (s.setReg k v).inputRr = s.inputRr := rfl
@[simp] theorem State.setReg_buckets (k v : Nat) : (s.setReg k v).buckets = s.buckets := rfl
@[simp] theorem State.setReg_handed (k v : Nat) : (s.setReg k v).handed = s.handed := rfl
@[simp] theorem State.setReg_history (k v : Nat) : (s.setReg k v).history = s.history := rfl
@[simp] theorem State.setReg_ports (k v : Nat) : (s.setReg k v).ports = s.ports := rfl
@[simp] theorem State.setReg_faults (k v : Nat) : (s.setReg k v).faults = s.faults := rfl
@[simp] theorem State.setReg_heldFrames (k v : Nat) : (s.setReg k v).heldFrames = s.heldFrames := rfl
@[simp] theorem State.setReg_peers (k v : Nat) : (s.setReg k v).peers = s.peers := rfl
@[simp] theorem State.setReg_beatAt (k v : Nat) : (s.setReg k v).beatAt = s.beatAt := rfl
@[simp] theorem State.setReg_suspicions (k v : Nat) : (s.setReg k v).suspicions = s.suspicions := rfl
@[simp] theorem State.setReg_probes (k v : Nat) : (s.setReg k v).probes = s.probes := rfl
@[simp] theorem State.setReg_lostModules (k v : Nat) : (s.setReg k v).lostModules = s.lostModules := rfl
@[simp] theorem State.setReg_wardenDone (k v : Nat) : (s.setReg k v).wardenDone = s.wardenDone := rfl
@[simp] theorem State.setReg_restoredBy (k v : Nat) : (s.setReg k v).restoredBy = s.restoredBy := rfl
@[simp] theorem State.setReg_remapGen (k v : Nat) : (s.setReg k v).remapGen = s.remapGen := rfl
@[simp] theorem State.setReg_ckpt (k v : Nat) : (s.setReg k v).ckpt = s.ckpt := rfl
@[simp] theorem State.setReg_ckptLast (k v : Nat) : (s.setReg k v).ckptLast = s.ckptLast := rfl
@[simp] theorem State.setReg_snaps (k v : Nat) : (s.setReg k v).snaps = s.snaps := rfl
@[simp] theorem State.setReg_buddyCopies (k v : Nat) : (s.setReg k v).buddyCopies = s.buddyCopies := rfl
@[simp] theorem State.setReg_partsIn (k v : Nat) : (s.setReg k v).partsIn = s.partsIn := rfl
@[simp] theorem State.setReg_updates (k v : Nat) : (s.setReg k v).updates = s.updates := rfl
@[simp] theorem State.setReg_rollback (k v : Nat) : (s.setReg k v).rollback = s.rollback := rfl
@[simp] theorem State.setReg_fabricHalted (k v : Nat) : (s.setReg k v).fabricHalted = s.fabricHalted := rfl
@[simp] theorem State.setReg_stackLost (k v : Nat) : (s.setReg k v).stackLost = s.stackLost := rfl
@[simp] theorem State.setReg_dieErrs (k v : Nat) : (s.setReg k v).dieErrs = s.dieErrs := rfl
@[simp] theorem State.setReg_stackReads (k v : Nat) : (s.setReg k v).stackReads = s.stackReads := rfl
@[simp] theorem State.setReg_scrubbed (k v : Nat) : (s.setReg k v).scrubbed = s.scrubbed := rfl
@[simp] theorem State.setReg_railRuns (k v : Nat) : (s.setReg k v).railRuns = s.railRuns := rfl
@[simp] theorem State.setReg_railOver (k v : Nat) : (s.setReg k v).railOver = s.railOver := rfl
@[simp] theorem State.setReg_msixMask (k v : Nat) : (s.setReg k v).msixMask = s.msixMask := rfl
@[simp] theorem State.setReg_msixPba (k v : Nat) : (s.setReg k v).msixPba = s.msixPba := rfl
@[simp] theorem State.setReg_vfsOff (k v : Nat) : (s.setReg k v).vfsOff = s.vfsOff := rfl
@[simp] theorem State.setReg_clock (k v : Nat) : (s.setReg k v).clock = s.clock := rfl
@[simp] theorem State.setReg_trust (k v : Nat) : (s.setReg k v).trust = s.trust := rfl
@[simp] theorem State.setReg_power (k v : Nat) : (s.setReg k v).power = s.power := rfl
@[simp] theorem State.setReg_mirror (k v : Nat) : (s.setReg k v).mirror = s.mirror := rfl
@[simp] theorem State.setReg_flashOp (k v : Nat) : (s.setReg k v).flashOp = s.flashOp := rfl
@[simp] theorem State.setReg_update (k v : Nat) : (s.setReg k v).update = s.update := rfl
@[simp] theorem State.setReg_phaseAt (k v : Nat) : (s.setReg k v).phaseAt = s.phaseAt := rfl
@[simp] theorem State.setReg_cueOld (k v : Nat) : (s.setReg k v).cueOld = s.cueOld := rfl
@[simp] theorem State.setReg_reduceMark (k v : Nat) : (s.setReg k v).reduceMark = s.reduceMark := rfl
@[simp] theorem State.setReg_optMark (k v : Nat) : (s.setReg k v).optMark = s.optMark := rfl
@[simp] theorem State.setReg_gatherMark (k v : Nat) : (s.setReg k v).gatherMark = s.gatherMark := rfl
@[simp] theorem State.setReg_out (k v : Nat) : (s.setReg k v).out = s.out := rfl
@[simp] theorem State.setReg_free (k v : Nat) : (s.setReg k v).free = s.free := rfl
@[simp] theorem State.setReg_pending (k v : Nat) : (s.setReg k v).pending = s.pending := rfl

/-! `State.setCore` changes `cores` only. -/

@[simp] theorem State.setCore_fuse (n : Nat) (c : Core) : (s.setCore n c).fuse = s.fuse := rfl
@[simp] theorem State.setCore_now (n : Nat) (c : Core) : (s.setCore n c).now = s.now := rfl
@[simp] theorem State.setCore_regs (n : Nat) (c : Core) : (s.setCore n c).regs = s.regs := rfl
@[simp] theorem State.setCore_near (n : Nat) (c : Core) : (s.setCore n c).near = s.near := rfl
@[simp] theorem State.setCore_nearPoison (n : Nat) (c : Core) : (s.setCore n c).nearPoison = s.nearPoison := rfl
@[simp] theorem State.setCore_die (n : Nat) (c : Core) : (s.setCore n c).die = s.die := rfl
@[simp] theorem State.setCore_diePoison (n : Nat) (c : Core) : (s.setCore n c).diePoison = s.diePoison := rfl
@[simp] theorem State.setCore_far (n : Nat) (c : Core) : (s.setCore n c).far = s.far := rfl
@[simp] theorem State.setCore_farPoison (n : Nat) (c : Core) : (s.setCore n c).farPoison = s.farPoison := rfl
@[simp] theorem State.setCore_farReqs (n : Nat) (c : Core) : (s.setCore n c).farReqs = s.farReqs := rfl
@[simp] theorem State.setCore_farAsks (n : Nat) (c : Core) : (s.setCore n c).farAsks = s.farAsks := rfl
@[simp] theorem State.setCore_farTimeouts (n : Nat) (c : Core) : (s.setCore n c).farTimeouts = s.farTimeouts := rfl
@[simp] theorem State.setCore_host (n : Nat) (c : Core) : (s.setCore n c).host = s.host := rfl
@[simp] theorem State.setCore_flash (n : Nat) (c : Core) : (s.setCore n c).flash = s.flash := rfl
@[simp] theorem State.setCore_cores (n : Nat) (c : Core) : (s.setCore n c).cores = Sparse.put s.cores n c := rfl
@[simp] theorem State.setCore_queues (n : Nat) (c : Core) : (s.setCore n c).queues = s.queues := rfl
@[simp] theorem State.setCore_acts (n : Nat) (c : Core) : (s.setCore n c).acts = s.acts := rfl
@[simp] theorem State.setCore_sems (n : Nat) (c : Core) : (s.setCore n c).sems = s.sems := rfl
@[simp] theorem State.setCore_holds (n : Nat) (c : Core) : (s.setCore n c).holds = s.holds := rfl
@[simp] theorem State.setCore_ts (n : Nat) (c : Core) : (s.setCore n c).ts = s.ts := rfl
@[simp] theorem State.setCore_inputRr (n : Nat) (c : Core) : (s.setCore n c).inputRr = s.inputRr := rfl
@[simp] theorem State.setCore_buckets (n : Nat) (c : Core) : (s.setCore n c).buckets = s.buckets := rfl
@[simp] theorem State.setCore_handed (n : Nat) (c : Core) : (s.setCore n c).handed = s.handed := rfl
@[simp] theorem State.setCore_history (n : Nat) (c : Core) : (s.setCore n c).history = s.history := rfl
@[simp] theorem State.setCore_ports (n : Nat) (c : Core) : (s.setCore n c).ports = s.ports := rfl
@[simp] theorem State.setCore_faults (n : Nat) (c : Core) : (s.setCore n c).faults = s.faults := rfl
@[simp] theorem State.setCore_heldFrames (n : Nat) (c : Core) : (s.setCore n c).heldFrames = s.heldFrames := rfl
@[simp] theorem State.setCore_peers (n : Nat) (c : Core) : (s.setCore n c).peers = s.peers := rfl
@[simp] theorem State.setCore_beatAt (n : Nat) (c : Core) : (s.setCore n c).beatAt = s.beatAt := rfl
@[simp] theorem State.setCore_suspicions (n : Nat) (c : Core) : (s.setCore n c).suspicions = s.suspicions := rfl
@[simp] theorem State.setCore_probes (n : Nat) (c : Core) : (s.setCore n c).probes = s.probes := rfl
@[simp] theorem State.setCore_lostModules (n : Nat) (c : Core) : (s.setCore n c).lostModules = s.lostModules := rfl
@[simp] theorem State.setCore_wardenDone (n : Nat) (c : Core) : (s.setCore n c).wardenDone = s.wardenDone := rfl
@[simp] theorem State.setCore_restoredBy (n : Nat) (c : Core) : (s.setCore n c).restoredBy = s.restoredBy := rfl
@[simp] theorem State.setCore_remapGen (n : Nat) (c : Core) : (s.setCore n c).remapGen = s.remapGen := rfl
@[simp] theorem State.setCore_ckpt (n : Nat) (c : Core) : (s.setCore n c).ckpt = s.ckpt := rfl
@[simp] theorem State.setCore_ckptLast (n : Nat) (c : Core) : (s.setCore n c).ckptLast = s.ckptLast := rfl
@[simp] theorem State.setCore_snaps (n : Nat) (c : Core) : (s.setCore n c).snaps = s.snaps := rfl
@[simp] theorem State.setCore_buddyCopies (n : Nat) (c : Core) : (s.setCore n c).buddyCopies = s.buddyCopies := rfl
@[simp] theorem State.setCore_partsIn (n : Nat) (c : Core) : (s.setCore n c).partsIn = s.partsIn := rfl
@[simp] theorem State.setCore_updates (n : Nat) (c : Core) : (s.setCore n c).updates = s.updates := rfl
@[simp] theorem State.setCore_rollback (n : Nat) (c : Core) : (s.setCore n c).rollback = s.rollback := rfl
@[simp] theorem State.setCore_fabricHalted (n : Nat) (c : Core) : (s.setCore n c).fabricHalted = s.fabricHalted := rfl
@[simp] theorem State.setCore_stackLost (n : Nat) (c : Core) : (s.setCore n c).stackLost = s.stackLost := rfl
@[simp] theorem State.setCore_dieErrs (n : Nat) (c : Core) : (s.setCore n c).dieErrs = s.dieErrs := rfl
@[simp] theorem State.setCore_stackReads (n : Nat) (c : Core) : (s.setCore n c).stackReads = s.stackReads := rfl
@[simp] theorem State.setCore_scrubbed (n : Nat) (c : Core) : (s.setCore n c).scrubbed = s.scrubbed := rfl
@[simp] theorem State.setCore_railRuns (n : Nat) (c : Core) : (s.setCore n c).railRuns = s.railRuns := rfl
@[simp] theorem State.setCore_railOver (n : Nat) (c : Core) : (s.setCore n c).railOver = s.railOver := rfl
@[simp] theorem State.setCore_msixMask (n : Nat) (c : Core) : (s.setCore n c).msixMask = s.msixMask := rfl
@[simp] theorem State.setCore_msixPba (n : Nat) (c : Core) : (s.setCore n c).msixPba = s.msixPba := rfl
@[simp] theorem State.setCore_vfsOff (n : Nat) (c : Core) : (s.setCore n c).vfsOff = s.vfsOff := rfl
@[simp] theorem State.setCore_clock (n : Nat) (c : Core) : (s.setCore n c).clock = s.clock := rfl
@[simp] theorem State.setCore_trust (n : Nat) (c : Core) : (s.setCore n c).trust = s.trust := rfl
@[simp] theorem State.setCore_power (n : Nat) (c : Core) : (s.setCore n c).power = s.power := rfl
@[simp] theorem State.setCore_mirror (n : Nat) (c : Core) : (s.setCore n c).mirror = s.mirror := rfl
@[simp] theorem State.setCore_flashOp (n : Nat) (c : Core) : (s.setCore n c).flashOp = s.flashOp := rfl
@[simp] theorem State.setCore_update (n : Nat) (c : Core) : (s.setCore n c).update = s.update := rfl
@[simp] theorem State.setCore_phaseAt (n : Nat) (c : Core) : (s.setCore n c).phaseAt = s.phaseAt := rfl
@[simp] theorem State.setCore_cueOld (n : Nat) (c : Core) : (s.setCore n c).cueOld = s.cueOld := rfl
@[simp] theorem State.setCore_reduceMark (n : Nat) (c : Core) : (s.setCore n c).reduceMark = s.reduceMark := rfl
@[simp] theorem State.setCore_optMark (n : Nat) (c : Core) : (s.setCore n c).optMark = s.optMark := rfl
@[simp] theorem State.setCore_gatherMark (n : Nat) (c : Core) : (s.setCore n c).gatherMark = s.gatherMark := rfl
@[simp] theorem State.setCore_out (n : Nat) (c : Core) : (s.setCore n c).out = s.out := rfl
@[simp] theorem State.setCore_free (n : Nat) (c : Core) : (s.setCore n c).free = s.free := rfl
@[simp] theorem State.setCore_pending (n : Nat) (c : Core) : (s.setCore n c).pending = s.pending := rfl

/-! `State.modQueue` changes `queues` only. -/

@[simp] theorem State.modQueue_fuse (q : Nat) (f : Queue → Queue) : (s.modQueue q f).fuse = s.fuse := rfl
@[simp] theorem State.modQueue_now (q : Nat) (f : Queue → Queue) : (s.modQueue q f).now = s.now := rfl
@[simp] theorem State.modQueue_regs (q : Nat) (f : Queue → Queue) : (s.modQueue q f).regs = s.regs := rfl
@[simp] theorem State.modQueue_near (q : Nat) (f : Queue → Queue) : (s.modQueue q f).near = s.near := rfl
@[simp] theorem State.modQueue_nearPoison (q : Nat) (f : Queue → Queue) : (s.modQueue q f).nearPoison = s.nearPoison := rfl
@[simp] theorem State.modQueue_die (q : Nat) (f : Queue → Queue) : (s.modQueue q f).die = s.die := rfl
@[simp] theorem State.modQueue_diePoison (q : Nat) (f : Queue → Queue) : (s.modQueue q f).diePoison = s.diePoison := rfl
@[simp] theorem State.modQueue_far (q : Nat) (f : Queue → Queue) : (s.modQueue q f).far = s.far := rfl
@[simp] theorem State.modQueue_farPoison (q : Nat) (f : Queue → Queue) : (s.modQueue q f).farPoison = s.farPoison := rfl
@[simp] theorem State.modQueue_farReqs (q : Nat) (f : Queue → Queue) : (s.modQueue q f).farReqs = s.farReqs := rfl
@[simp] theorem State.modQueue_farAsks (q : Nat) (f : Queue → Queue) : (s.modQueue q f).farAsks = s.farAsks := rfl
@[simp] theorem State.modQueue_farTimeouts (q : Nat) (f : Queue → Queue) : (s.modQueue q f).farTimeouts = s.farTimeouts := rfl
@[simp] theorem State.modQueue_host (q : Nat) (f : Queue → Queue) : (s.modQueue q f).host = s.host := rfl
@[simp] theorem State.modQueue_flash (q : Nat) (f : Queue → Queue) : (s.modQueue q f).flash = s.flash := rfl
@[simp] theorem State.modQueue_cores (q : Nat) (f : Queue → Queue) : (s.modQueue q f).cores = s.cores := rfl
@[simp] theorem State.modQueue_queues (q : Nat) (f : Queue → Queue) : (s.modQueue q f).queues = Sparse.put s.queues q (f (s.queue q)) := rfl
@[simp] theorem State.modQueue_acts (q : Nat) (f : Queue → Queue) : (s.modQueue q f).acts = s.acts := rfl
@[simp] theorem State.modQueue_sems (q : Nat) (f : Queue → Queue) : (s.modQueue q f).sems = s.sems := rfl
@[simp] theorem State.modQueue_holds (q : Nat) (f : Queue → Queue) : (s.modQueue q f).holds = s.holds := rfl
@[simp] theorem State.modQueue_ts (q : Nat) (f : Queue → Queue) : (s.modQueue q f).ts = s.ts := rfl
@[simp] theorem State.modQueue_inputRr (q : Nat) (f : Queue → Queue) : (s.modQueue q f).inputRr = s.inputRr := rfl
@[simp] theorem State.modQueue_buckets (q : Nat) (f : Queue → Queue) : (s.modQueue q f).buckets = s.buckets := rfl
@[simp] theorem State.modQueue_handed (q : Nat) (f : Queue → Queue) : (s.modQueue q f).handed = s.handed := rfl
@[simp] theorem State.modQueue_history (q : Nat) (f : Queue → Queue) : (s.modQueue q f).history = s.history := rfl
@[simp] theorem State.modQueue_ports (q : Nat) (f : Queue → Queue) : (s.modQueue q f).ports = s.ports := rfl
@[simp] theorem State.modQueue_faults (q : Nat) (f : Queue → Queue) : (s.modQueue q f).faults = s.faults := rfl
@[simp] theorem State.modQueue_heldFrames (q : Nat) (f : Queue → Queue) : (s.modQueue q f).heldFrames = s.heldFrames := rfl
@[simp] theorem State.modQueue_peers (q : Nat) (f : Queue → Queue) : (s.modQueue q f).peers = s.peers := rfl
@[simp] theorem State.modQueue_beatAt (q : Nat) (f : Queue → Queue) : (s.modQueue q f).beatAt = s.beatAt := rfl
@[simp] theorem State.modQueue_suspicions (q : Nat) (f : Queue → Queue) : (s.modQueue q f).suspicions = s.suspicions := rfl
@[simp] theorem State.modQueue_probes (q : Nat) (f : Queue → Queue) : (s.modQueue q f).probes = s.probes := rfl
@[simp] theorem State.modQueue_lostModules (q : Nat) (f : Queue → Queue) : (s.modQueue q f).lostModules = s.lostModules := rfl
@[simp] theorem State.modQueue_wardenDone (q : Nat) (f : Queue → Queue) : (s.modQueue q f).wardenDone = s.wardenDone := rfl
@[simp] theorem State.modQueue_restoredBy (q : Nat) (f : Queue → Queue) : (s.modQueue q f).restoredBy = s.restoredBy := rfl
@[simp] theorem State.modQueue_remapGen (q : Nat) (f : Queue → Queue) : (s.modQueue q f).remapGen = s.remapGen := rfl
@[simp] theorem State.modQueue_ckpt (q : Nat) (f : Queue → Queue) : (s.modQueue q f).ckpt = s.ckpt := rfl
@[simp] theorem State.modQueue_ckptLast (q : Nat) (f : Queue → Queue) : (s.modQueue q f).ckptLast = s.ckptLast := rfl
@[simp] theorem State.modQueue_snaps (q : Nat) (f : Queue → Queue) : (s.modQueue q f).snaps = s.snaps := rfl
@[simp] theorem State.modQueue_buddyCopies (q : Nat) (f : Queue → Queue) : (s.modQueue q f).buddyCopies = s.buddyCopies := rfl
@[simp] theorem State.modQueue_partsIn (q : Nat) (f : Queue → Queue) : (s.modQueue q f).partsIn = s.partsIn := rfl
@[simp] theorem State.modQueue_updates (q : Nat) (f : Queue → Queue) : (s.modQueue q f).updates = s.updates := rfl
@[simp] theorem State.modQueue_rollback (q : Nat) (f : Queue → Queue) : (s.modQueue q f).rollback = s.rollback := rfl
@[simp] theorem State.modQueue_fabricHalted (q : Nat) (f : Queue → Queue) : (s.modQueue q f).fabricHalted = s.fabricHalted := rfl
@[simp] theorem State.modQueue_stackLost (q : Nat) (f : Queue → Queue) : (s.modQueue q f).stackLost = s.stackLost := rfl
@[simp] theorem State.modQueue_dieErrs (q : Nat) (f : Queue → Queue) : (s.modQueue q f).dieErrs = s.dieErrs := rfl
@[simp] theorem State.modQueue_stackReads (q : Nat) (f : Queue → Queue) : (s.modQueue q f).stackReads = s.stackReads := rfl
@[simp] theorem State.modQueue_scrubbed (q : Nat) (f : Queue → Queue) : (s.modQueue q f).scrubbed = s.scrubbed := rfl
@[simp] theorem State.modQueue_railRuns (q : Nat) (f : Queue → Queue) : (s.modQueue q f).railRuns = s.railRuns := rfl
@[simp] theorem State.modQueue_railOver (q : Nat) (f : Queue → Queue) : (s.modQueue q f).railOver = s.railOver := rfl
@[simp] theorem State.modQueue_msixMask (q : Nat) (f : Queue → Queue) : (s.modQueue q f).msixMask = s.msixMask := rfl
@[simp] theorem State.modQueue_msixPba (q : Nat) (f : Queue → Queue) : (s.modQueue q f).msixPba = s.msixPba := rfl
@[simp] theorem State.modQueue_vfsOff (q : Nat) (f : Queue → Queue) : (s.modQueue q f).vfsOff = s.vfsOff := rfl
@[simp] theorem State.modQueue_clock (q : Nat) (f : Queue → Queue) : (s.modQueue q f).clock = s.clock := rfl
@[simp] theorem State.modQueue_trust (q : Nat) (f : Queue → Queue) : (s.modQueue q f).trust = s.trust := rfl
@[simp] theorem State.modQueue_power (q : Nat) (f : Queue → Queue) : (s.modQueue q f).power = s.power := rfl
@[simp] theorem State.modQueue_mirror (q : Nat) (f : Queue → Queue) : (s.modQueue q f).mirror = s.mirror := rfl
@[simp] theorem State.modQueue_flashOp (q : Nat) (f : Queue → Queue) : (s.modQueue q f).flashOp = s.flashOp := rfl
@[simp] theorem State.modQueue_update (q : Nat) (f : Queue → Queue) : (s.modQueue q f).update = s.update := rfl
@[simp] theorem State.modQueue_phaseAt (q : Nat) (f : Queue → Queue) : (s.modQueue q f).phaseAt = s.phaseAt := rfl
@[simp] theorem State.modQueue_cueOld (q : Nat) (f : Queue → Queue) : (s.modQueue q f).cueOld = s.cueOld := rfl
@[simp] theorem State.modQueue_reduceMark (q : Nat) (f : Queue → Queue) : (s.modQueue q f).reduceMark = s.reduceMark := rfl
@[simp] theorem State.modQueue_optMark (q : Nat) (f : Queue → Queue) : (s.modQueue q f).optMark = s.optMark := rfl
@[simp] theorem State.modQueue_gatherMark (q : Nat) (f : Queue → Queue) : (s.modQueue q f).gatherMark = s.gatherMark := rfl
@[simp] theorem State.modQueue_out (q : Nat) (f : Queue → Queue) : (s.modQueue q f).out = s.out := rfl
@[simp] theorem State.modQueue_free (q : Nat) (f : Queue → Queue) : (s.modQueue q f).free = s.free := rfl
@[simp] theorem State.modQueue_pending (q : Nat) (f : Queue → Queue) : (s.modQueue q f).pending = s.pending := rfl

/-! `State.modPort` changes `ports` only. -/

@[simp] theorem State.modPort_fuse (p : Nat) (f : Port → Port) : (s.modPort p f).fuse = s.fuse := rfl
@[simp] theorem State.modPort_now (p : Nat) (f : Port → Port) : (s.modPort p f).now = s.now := rfl
@[simp] theorem State.modPort_regs (p : Nat) (f : Port → Port) : (s.modPort p f).regs = s.regs := rfl
@[simp] theorem State.modPort_near (p : Nat) (f : Port → Port) : (s.modPort p f).near = s.near := rfl
@[simp] theorem State.modPort_nearPoison (p : Nat) (f : Port → Port) : (s.modPort p f).nearPoison = s.nearPoison := rfl
@[simp] theorem State.modPort_die (p : Nat) (f : Port → Port) : (s.modPort p f).die = s.die := rfl
@[simp] theorem State.modPort_diePoison (p : Nat) (f : Port → Port) : (s.modPort p f).diePoison = s.diePoison := rfl
@[simp] theorem State.modPort_far (p : Nat) (f : Port → Port) : (s.modPort p f).far = s.far := rfl
@[simp] theorem State.modPort_farPoison (p : Nat) (f : Port → Port) : (s.modPort p f).farPoison = s.farPoison := rfl
@[simp] theorem State.modPort_farReqs (p : Nat) (f : Port → Port) : (s.modPort p f).farReqs = s.farReqs := rfl
@[simp] theorem State.modPort_farAsks (p : Nat) (f : Port → Port) : (s.modPort p f).farAsks = s.farAsks := rfl
@[simp] theorem State.modPort_farTimeouts (p : Nat) (f : Port → Port) : (s.modPort p f).farTimeouts = s.farTimeouts := rfl
@[simp] theorem State.modPort_host (p : Nat) (f : Port → Port) : (s.modPort p f).host = s.host := rfl
@[simp] theorem State.modPort_flash (p : Nat) (f : Port → Port) : (s.modPort p f).flash = s.flash := rfl
@[simp] theorem State.modPort_cores (p : Nat) (f : Port → Port) : (s.modPort p f).cores = s.cores := rfl
@[simp] theorem State.modPort_queues (p : Nat) (f : Port → Port) : (s.modPort p f).queues = s.queues := rfl
@[simp] theorem State.modPort_acts (p : Nat) (f : Port → Port) : (s.modPort p f).acts = s.acts := rfl
@[simp] theorem State.modPort_sems (p : Nat) (f : Port → Port) : (s.modPort p f).sems = s.sems := rfl
@[simp] theorem State.modPort_holds (p : Nat) (f : Port → Port) : (s.modPort p f).holds = s.holds := rfl
@[simp] theorem State.modPort_ts (p : Nat) (f : Port → Port) : (s.modPort p f).ts = s.ts := rfl
@[simp] theorem State.modPort_inputRr (p : Nat) (f : Port → Port) : (s.modPort p f).inputRr = s.inputRr := rfl
@[simp] theorem State.modPort_buckets (p : Nat) (f : Port → Port) : (s.modPort p f).buckets = s.buckets := rfl
@[simp] theorem State.modPort_handed (p : Nat) (f : Port → Port) : (s.modPort p f).handed = s.handed := rfl
@[simp] theorem State.modPort_history (p : Nat) (f : Port → Port) : (s.modPort p f).history = s.history := rfl
@[simp] theorem State.modPort_ports (p : Nat) (f : Port → Port) : (s.modPort p f).ports = Sparse.put s.ports p (f (s.port p)) := rfl
@[simp] theorem State.modPort_faults (p : Nat) (f : Port → Port) : (s.modPort p f).faults = s.faults := rfl
@[simp] theorem State.modPort_heldFrames (p : Nat) (f : Port → Port) : (s.modPort p f).heldFrames = s.heldFrames := rfl
@[simp] theorem State.modPort_peers (p : Nat) (f : Port → Port) : (s.modPort p f).peers = s.peers := rfl
@[simp] theorem State.modPort_beatAt (p : Nat) (f : Port → Port) : (s.modPort p f).beatAt = s.beatAt := rfl
@[simp] theorem State.modPort_suspicions (p : Nat) (f : Port → Port) : (s.modPort p f).suspicions = s.suspicions := rfl
@[simp] theorem State.modPort_probes (p : Nat) (f : Port → Port) : (s.modPort p f).probes = s.probes := rfl
@[simp] theorem State.modPort_lostModules (p : Nat) (f : Port → Port) : (s.modPort p f).lostModules = s.lostModules := rfl
@[simp] theorem State.modPort_wardenDone (p : Nat) (f : Port → Port) : (s.modPort p f).wardenDone = s.wardenDone := rfl
@[simp] theorem State.modPort_restoredBy (p : Nat) (f : Port → Port) : (s.modPort p f).restoredBy = s.restoredBy := rfl
@[simp] theorem State.modPort_remapGen (p : Nat) (f : Port → Port) : (s.modPort p f).remapGen = s.remapGen := rfl
@[simp] theorem State.modPort_ckpt (p : Nat) (f : Port → Port) : (s.modPort p f).ckpt = s.ckpt := rfl
@[simp] theorem State.modPort_ckptLast (p : Nat) (f : Port → Port) : (s.modPort p f).ckptLast = s.ckptLast := rfl
@[simp] theorem State.modPort_snaps (p : Nat) (f : Port → Port) : (s.modPort p f).snaps = s.snaps := rfl
@[simp] theorem State.modPort_buddyCopies (p : Nat) (f : Port → Port) : (s.modPort p f).buddyCopies = s.buddyCopies := rfl
@[simp] theorem State.modPort_partsIn (p : Nat) (f : Port → Port) : (s.modPort p f).partsIn = s.partsIn := rfl
@[simp] theorem State.modPort_updates (p : Nat) (f : Port → Port) : (s.modPort p f).updates = s.updates := rfl
@[simp] theorem State.modPort_rollback (p : Nat) (f : Port → Port) : (s.modPort p f).rollback = s.rollback := rfl
@[simp] theorem State.modPort_fabricHalted (p : Nat) (f : Port → Port) : (s.modPort p f).fabricHalted = s.fabricHalted := rfl
@[simp] theorem State.modPort_stackLost (p : Nat) (f : Port → Port) : (s.modPort p f).stackLost = s.stackLost := rfl
@[simp] theorem State.modPort_dieErrs (p : Nat) (f : Port → Port) : (s.modPort p f).dieErrs = s.dieErrs := rfl
@[simp] theorem State.modPort_stackReads (p : Nat) (f : Port → Port) : (s.modPort p f).stackReads = s.stackReads := rfl
@[simp] theorem State.modPort_scrubbed (p : Nat) (f : Port → Port) : (s.modPort p f).scrubbed = s.scrubbed := rfl
@[simp] theorem State.modPort_railRuns (p : Nat) (f : Port → Port) : (s.modPort p f).railRuns = s.railRuns := rfl
@[simp] theorem State.modPort_railOver (p : Nat) (f : Port → Port) : (s.modPort p f).railOver = s.railOver := rfl
@[simp] theorem State.modPort_msixMask (p : Nat) (f : Port → Port) : (s.modPort p f).msixMask = s.msixMask := rfl
@[simp] theorem State.modPort_msixPba (p : Nat) (f : Port → Port) : (s.modPort p f).msixPba = s.msixPba := rfl
@[simp] theorem State.modPort_vfsOff (p : Nat) (f : Port → Port) : (s.modPort p f).vfsOff = s.vfsOff := rfl
@[simp] theorem State.modPort_clock (p : Nat) (f : Port → Port) : (s.modPort p f).clock = s.clock := rfl
@[simp] theorem State.modPort_trust (p : Nat) (f : Port → Port) : (s.modPort p f).trust = s.trust := rfl
@[simp] theorem State.modPort_power (p : Nat) (f : Port → Port) : (s.modPort p f).power = s.power := rfl
@[simp] theorem State.modPort_mirror (p : Nat) (f : Port → Port) : (s.modPort p f).mirror = s.mirror := rfl
@[simp] theorem State.modPort_flashOp (p : Nat) (f : Port → Port) : (s.modPort p f).flashOp = s.flashOp := rfl
@[simp] theorem State.modPort_update (p : Nat) (f : Port → Port) : (s.modPort p f).update = s.update := rfl
@[simp] theorem State.modPort_phaseAt (p : Nat) (f : Port → Port) : (s.modPort p f).phaseAt = s.phaseAt := rfl
@[simp] theorem State.modPort_cueOld (p : Nat) (f : Port → Port) : (s.modPort p f).cueOld = s.cueOld := rfl
@[simp] theorem State.modPort_reduceMark (p : Nat) (f : Port → Port) : (s.modPort p f).reduceMark = s.reduceMark := rfl
@[simp] theorem State.modPort_optMark (p : Nat) (f : Port → Port) : (s.modPort p f).optMark = s.optMark := rfl
@[simp] theorem State.modPort_gatherMark (p : Nat) (f : Port → Port) : (s.modPort p f).gatherMark = s.gatherMark := rfl
@[simp] theorem State.modPort_out (p : Nat) (f : Port → Port) : (s.modPort p f).out = s.out := rfl
@[simp] theorem State.modPort_free (p : Nat) (f : Port → Port) : (s.modPort p f).free = s.free := rfl
@[simp] theorem State.modPort_pending (p : Nat) (f : Port → Port) : (s.modPort p f).pending = s.pending := rfl

/-! `State.emit` changes `out` only. -/

@[simp] theorem State.emit_fuse (o : Out) : (s.emit o).fuse = s.fuse := rfl
@[simp] theorem State.emit_now (o : Out) : (s.emit o).now = s.now := rfl
@[simp] theorem State.emit_regs (o : Out) : (s.emit o).regs = s.regs := rfl
@[simp] theorem State.emit_near (o : Out) : (s.emit o).near = s.near := rfl
@[simp] theorem State.emit_nearPoison (o : Out) : (s.emit o).nearPoison = s.nearPoison := rfl
@[simp] theorem State.emit_die (o : Out) : (s.emit o).die = s.die := rfl
@[simp] theorem State.emit_diePoison (o : Out) : (s.emit o).diePoison = s.diePoison := rfl
@[simp] theorem State.emit_far (o : Out) : (s.emit o).far = s.far := rfl
@[simp] theorem State.emit_farPoison (o : Out) : (s.emit o).farPoison = s.farPoison := rfl
@[simp] theorem State.emit_farReqs (o : Out) : (s.emit o).farReqs = s.farReqs := rfl
@[simp] theorem State.emit_farAsks (o : Out) : (s.emit o).farAsks = s.farAsks := rfl
@[simp] theorem State.emit_farTimeouts (o : Out) : (s.emit o).farTimeouts = s.farTimeouts := rfl
@[simp] theorem State.emit_host (o : Out) : (s.emit o).host = s.host := rfl
@[simp] theorem State.emit_flash (o : Out) : (s.emit o).flash = s.flash := rfl
@[simp] theorem State.emit_cores (o : Out) : (s.emit o).cores = s.cores := rfl
@[simp] theorem State.emit_queues (o : Out) : (s.emit o).queues = s.queues := rfl
@[simp] theorem State.emit_acts (o : Out) : (s.emit o).acts = s.acts := rfl
@[simp] theorem State.emit_sems (o : Out) : (s.emit o).sems = s.sems := rfl
@[simp] theorem State.emit_holds (o : Out) : (s.emit o).holds = s.holds := rfl
@[simp] theorem State.emit_ts (o : Out) : (s.emit o).ts = s.ts := rfl
@[simp] theorem State.emit_inputRr (o : Out) : (s.emit o).inputRr = s.inputRr := rfl
@[simp] theorem State.emit_buckets (o : Out) : (s.emit o).buckets = s.buckets := rfl
@[simp] theorem State.emit_handed (o : Out) : (s.emit o).handed = s.handed := rfl
@[simp] theorem State.emit_history (o : Out) : (s.emit o).history = s.history := rfl
@[simp] theorem State.emit_ports (o : Out) : (s.emit o).ports = s.ports := rfl
@[simp] theorem State.emit_faults (o : Out) : (s.emit o).faults = s.faults := rfl
@[simp] theorem State.emit_heldFrames (o : Out) : (s.emit o).heldFrames = s.heldFrames := rfl
@[simp] theorem State.emit_peers (o : Out) : (s.emit o).peers = s.peers := rfl
@[simp] theorem State.emit_beatAt (o : Out) : (s.emit o).beatAt = s.beatAt := rfl
@[simp] theorem State.emit_suspicions (o : Out) : (s.emit o).suspicions = s.suspicions := rfl
@[simp] theorem State.emit_probes (o : Out) : (s.emit o).probes = s.probes := rfl
@[simp] theorem State.emit_lostModules (o : Out) : (s.emit o).lostModules = s.lostModules := rfl
@[simp] theorem State.emit_wardenDone (o : Out) : (s.emit o).wardenDone = s.wardenDone := rfl
@[simp] theorem State.emit_restoredBy (o : Out) : (s.emit o).restoredBy = s.restoredBy := rfl
@[simp] theorem State.emit_remapGen (o : Out) : (s.emit o).remapGen = s.remapGen := rfl
@[simp] theorem State.emit_ckpt (o : Out) : (s.emit o).ckpt = s.ckpt := rfl
@[simp] theorem State.emit_ckptLast (o : Out) : (s.emit o).ckptLast = s.ckptLast := rfl
@[simp] theorem State.emit_snaps (o : Out) : (s.emit o).snaps = s.snaps := rfl
@[simp] theorem State.emit_buddyCopies (o : Out) : (s.emit o).buddyCopies = s.buddyCopies := rfl
@[simp] theorem State.emit_partsIn (o : Out) : (s.emit o).partsIn = s.partsIn := rfl
@[simp] theorem State.emit_updates (o : Out) : (s.emit o).updates = s.updates := rfl
@[simp] theorem State.emit_rollback (o : Out) : (s.emit o).rollback = s.rollback := rfl
@[simp] theorem State.emit_fabricHalted (o : Out) : (s.emit o).fabricHalted = s.fabricHalted := rfl
@[simp] theorem State.emit_stackLost (o : Out) : (s.emit o).stackLost = s.stackLost := rfl
@[simp] theorem State.emit_dieErrs (o : Out) : (s.emit o).dieErrs = s.dieErrs := rfl
@[simp] theorem State.emit_stackReads (o : Out) : (s.emit o).stackReads = s.stackReads := rfl
@[simp] theorem State.emit_scrubbed (o : Out) : (s.emit o).scrubbed = s.scrubbed := rfl
@[simp] theorem State.emit_railRuns (o : Out) : (s.emit o).railRuns = s.railRuns := rfl
@[simp] theorem State.emit_railOver (o : Out) : (s.emit o).railOver = s.railOver := rfl
@[simp] theorem State.emit_msixMask (o : Out) : (s.emit o).msixMask = s.msixMask := rfl
@[simp] theorem State.emit_msixPba (o : Out) : (s.emit o).msixPba = s.msixPba := rfl
@[simp] theorem State.emit_vfsOff (o : Out) : (s.emit o).vfsOff = s.vfsOff := rfl
@[simp] theorem State.emit_clock (o : Out) : (s.emit o).clock = s.clock := rfl
@[simp] theorem State.emit_trust (o : Out) : (s.emit o).trust = s.trust := rfl
@[simp] theorem State.emit_power (o : Out) : (s.emit o).power = s.power := rfl
@[simp] theorem State.emit_mirror (o : Out) : (s.emit o).mirror = s.mirror := rfl
@[simp] theorem State.emit_flashOp (o : Out) : (s.emit o).flashOp = s.flashOp := rfl
@[simp] theorem State.emit_update (o : Out) : (s.emit o).update = s.update := rfl
@[simp] theorem State.emit_phaseAt (o : Out) : (s.emit o).phaseAt = s.phaseAt := rfl
@[simp] theorem State.emit_cueOld (o : Out) : (s.emit o).cueOld = s.cueOld := rfl
@[simp] theorem State.emit_reduceMark (o : Out) : (s.emit o).reduceMark = s.reduceMark := rfl
@[simp] theorem State.emit_optMark (o : Out) : (s.emit o).optMark = s.optMark := rfl
@[simp] theorem State.emit_gatherMark (o : Out) : (s.emit o).gatherMark = s.gatherMark := rfl
@[simp] theorem State.emit_out (o : Out) : (s.emit o).out = s.out ++ [o] := rfl
@[simp] theorem State.emit_free (o : Out) : (s.emit o).free = s.free := rfl
@[simp] theorem State.emit_pending (o : Out) : (s.emit o).pending = s.pending := rfl

/-! `State.drawn` changes `free` only. -/

@[simp] theorem State.drawn_fuse : (s.drawn).fuse = s.fuse := rfl
@[simp] theorem State.drawn_now : (s.drawn).now = s.now := rfl
@[simp] theorem State.drawn_regs : (s.drawn).regs = s.regs := rfl
@[simp] theorem State.drawn_near : (s.drawn).near = s.near := rfl
@[simp] theorem State.drawn_nearPoison : (s.drawn).nearPoison = s.nearPoison := rfl
@[simp] theorem State.drawn_die : (s.drawn).die = s.die := rfl
@[simp] theorem State.drawn_diePoison : (s.drawn).diePoison = s.diePoison := rfl
@[simp] theorem State.drawn_far : (s.drawn).far = s.far := rfl
@[simp] theorem State.drawn_farPoison : (s.drawn).farPoison = s.farPoison := rfl
@[simp] theorem State.drawn_farReqs : (s.drawn).farReqs = s.farReqs := rfl
@[simp] theorem State.drawn_farAsks : (s.drawn).farAsks = s.farAsks := rfl
@[simp] theorem State.drawn_farTimeouts : (s.drawn).farTimeouts = s.farTimeouts := rfl
@[simp] theorem State.drawn_host : (s.drawn).host = s.host := rfl
@[simp] theorem State.drawn_flash : (s.drawn).flash = s.flash := rfl
@[simp] theorem State.drawn_cores : (s.drawn).cores = s.cores := rfl
@[simp] theorem State.drawn_queues : (s.drawn).queues = s.queues := rfl
@[simp] theorem State.drawn_acts : (s.drawn).acts = s.acts := rfl
@[simp] theorem State.drawn_sems : (s.drawn).sems = s.sems := rfl
@[simp] theorem State.drawn_holds : (s.drawn).holds = s.holds := rfl
@[simp] theorem State.drawn_ts : (s.drawn).ts = s.ts := rfl
@[simp] theorem State.drawn_inputRr : (s.drawn).inputRr = s.inputRr := rfl
@[simp] theorem State.drawn_buckets : (s.drawn).buckets = s.buckets := rfl
@[simp] theorem State.drawn_handed : (s.drawn).handed = s.handed := rfl
@[simp] theorem State.drawn_history : (s.drawn).history = s.history := rfl
@[simp] theorem State.drawn_ports : (s.drawn).ports = s.ports := rfl
@[simp] theorem State.drawn_faults : (s.drawn).faults = s.faults := rfl
@[simp] theorem State.drawn_heldFrames : (s.drawn).heldFrames = s.heldFrames := rfl
@[simp] theorem State.drawn_peers : (s.drawn).peers = s.peers := rfl
@[simp] theorem State.drawn_beatAt : (s.drawn).beatAt = s.beatAt := rfl
@[simp] theorem State.drawn_suspicions : (s.drawn).suspicions = s.suspicions := rfl
@[simp] theorem State.drawn_probes : (s.drawn).probes = s.probes := rfl
@[simp] theorem State.drawn_lostModules : (s.drawn).lostModules = s.lostModules := rfl
@[simp] theorem State.drawn_wardenDone : (s.drawn).wardenDone = s.wardenDone := rfl
@[simp] theorem State.drawn_restoredBy : (s.drawn).restoredBy = s.restoredBy := rfl
@[simp] theorem State.drawn_remapGen : (s.drawn).remapGen = s.remapGen := rfl
@[simp] theorem State.drawn_ckpt : (s.drawn).ckpt = s.ckpt := rfl
@[simp] theorem State.drawn_ckptLast : (s.drawn).ckptLast = s.ckptLast := rfl
@[simp] theorem State.drawn_snaps : (s.drawn).snaps = s.snaps := rfl
@[simp] theorem State.drawn_buddyCopies : (s.drawn).buddyCopies = s.buddyCopies := rfl
@[simp] theorem State.drawn_partsIn : (s.drawn).partsIn = s.partsIn := rfl
@[simp] theorem State.drawn_updates : (s.drawn).updates = s.updates := rfl
@[simp] theorem State.drawn_rollback : (s.drawn).rollback = s.rollback := rfl
@[simp] theorem State.drawn_fabricHalted : (s.drawn).fabricHalted = s.fabricHalted := rfl
@[simp] theorem State.drawn_stackLost : (s.drawn).stackLost = s.stackLost := rfl
@[simp] theorem State.drawn_dieErrs : (s.drawn).dieErrs = s.dieErrs := rfl
@[simp] theorem State.drawn_stackReads : (s.drawn).stackReads = s.stackReads := rfl
@[simp] theorem State.drawn_scrubbed : (s.drawn).scrubbed = s.scrubbed := rfl
@[simp] theorem State.drawn_railRuns : (s.drawn).railRuns = s.railRuns := rfl
@[simp] theorem State.drawn_railOver : (s.drawn).railOver = s.railOver := rfl
@[simp] theorem State.drawn_msixMask : (s.drawn).msixMask = s.msixMask := rfl
@[simp] theorem State.drawn_msixPba : (s.drawn).msixPba = s.msixPba := rfl
@[simp] theorem State.drawn_vfsOff : (s.drawn).vfsOff = s.vfsOff := rfl
@[simp] theorem State.drawn_clock : (s.drawn).clock = s.clock := rfl
@[simp] theorem State.drawn_trust : (s.drawn).trust = s.trust := rfl
@[simp] theorem State.drawn_power : (s.drawn).power = s.power := rfl
@[simp] theorem State.drawn_mirror : (s.drawn).mirror = s.mirror := rfl
@[simp] theorem State.drawn_flashOp : (s.drawn).flashOp = s.flashOp := rfl
@[simp] theorem State.drawn_update : (s.drawn).update = s.update := rfl
@[simp] theorem State.drawn_phaseAt : (s.drawn).phaseAt = s.phaseAt := rfl
@[simp] theorem State.drawn_cueOld : (s.drawn).cueOld = s.cueOld := rfl
@[simp] theorem State.drawn_reduceMark : (s.drawn).reduceMark = s.reduceMark := rfl
@[simp] theorem State.drawn_optMark : (s.drawn).optMark = s.optMark := rfl
@[simp] theorem State.drawn_gatherMark : (s.drawn).gatherMark = s.gatherMark := rfl
@[simp] theorem State.drawn_out : (s.drawn).out = s.out := rfl
@[simp] theorem State.drawn_free : (s.drawn).free = s.free + 1 := rfl
@[simp] theorem State.drawn_pending : (s.drawn).pending = s.pending := rfl

/-! The other updates in terms of these. -/

@[simp] theorem State.setFld_eq (k : Nat) (f : Fld) (v : Nat) :
    s.setFld k f v = s.setReg k (putBits (s.reg k) f.lo f.w v) := rfl
@[simp] theorem State.modCore_eq (n : Nat) (f : Core → Core) : s.modCore n f = s.setCore n (f (s.core n)) := rfl

/-! Registers. -/

/-- A register that was set reads the value, cut to 64 bits. -/
@[simp] theorem State.reg_setReg_same (k v : Nat) : (s.setReg k v).reg k = v % 2 ^ 64 := by
  simp [State.reg]

/-- Setting a register leaves every other one. -/
theorem State.reg_setReg_other {k k' : Nat} (h : k' ≠ k) (v : Nat) : (s.setReg k v).reg k' = s.reg k' := by
  simp [State.reg, Sparse.getOpt_put_other h]

/-- A register that was set, and the others. -/
theorem State.reg_setReg (k k' v : Nat) : (s.setReg k v).reg k' = if k' = k then v % 2 ^ 64 else s.reg k' := by
  by_cases h : k' = k
  · subst h; simp
  · rw [if_neg h, State.reg_setReg_other s h]

/-- A register reads alike in states with the same register file and fuses. -/
theorem State.reg_congr {s t : State} (hr : t.regs = s.regs) (hf : t.fuse = s.fuse) (k : Nat) : t.reg k = s.reg k := by
  simp [State.reg, hr, hf]

/-- A field reads alike in states with the same register file and fuses. -/
theorem State.fld_congr {s t : State} (hr : t.regs = s.regs) (hf : t.fuse = s.fuse) (k : Nat) (f : Fld) :
    t.fld k f = s.fld k f := by
  simp [State.fld, State.reg_congr hr hf]

/-- Every register is a 64-bit number, if its reset value is. -/
theorem State.reg_lt {k : Nat} (h : resetReg s.fuse k < 2 ^ 64) : s.reg k < 2 ^ 64 := by
  unfold State.reg
  split
  · exact (BitVec.isLt _)
  · exact h

/-- A field that was set reads the value, cut to its width. -/
theorem State.fld_setFld_same {k : Nat} {f : Fld} (v : Nat) (hs : resetReg s.fuse k < 2 ^ 64)
    (hf : f.lo + f.w ≤ 64) : (s.setFld k f v).fld k f = v % 2 ^ f.w := by
  have hlt := putBits_lt (v := v) (s.reg_lt hs) hf
  rw [State.fld, State.setFld, State.reg_setReg_same, Nat.mod_eq_of_lt hlt, bits_putBits_same]

/-- Setting a field leaves the fields of other registers. -/
theorem State.fld_setFld_otherReg {k k' : Nat} (h : k' ≠ k) (f f' : Fld) (v : Nat) :
    (s.setFld k f v).fld k' f' = s.fld k' f' := by
  rw [State.fld, State.setFld, State.reg_setReg_other s h, State.fld]

/-- Setting a field leaves the fields beside it. -/
theorem State.fld_setFld_beside {k : Nat} {f f' : Fld} (v : Nat) (hs : resetReg s.fuse k < 2 ^ 64)
    (hf : f.lo + f.w ≤ 64) (h : f'.lo + f'.w ≤ f.lo ∨ f.lo + f.w ≤ f'.lo) :
    (s.setFld k f v).fld k f' = s.fld k f' := by
  have hlt := putBits_lt (v := v) (s.reg_lt hs) hf
  rw [State.fld, State.setFld, State.reg_setReg_same, Nat.mod_eq_of_lt hlt, bits_putBits_other _ _ _ _ _ _ h,
    State.fld]

/-! Cores and contexts. -/

@[simp] theorem State.core_setCore_same (n : Nat) (c : Core) : (s.setCore n c).core n = c := by
  simp [State.core]

theorem State.core_setCore_other {n n' : Nat} (h : n' ≠ n) (c : Core) : (s.setCore n c).core n' = s.core n' := by
  simp [State.core, Sparse.get_put_other _ h]

/-- Changing a context is setting its core. -/
theorem State.modCtx_eq (n x : Nat) (f : SeqCtx → SeqCtx) :
    s.modCtx n x f = s.setCore n (if x = 0 then { s.core n with ctx0 := f (s.core n).ctx0 }
      else { s.core n with ctx1 := f (s.core n).ctx1 }) := rfl

/-- A context that was changed. -/
@[simp] theorem State.ctx_modCtx_same (n x : Nat) (f : SeqCtx → SeqCtx) :
    (s.modCtx n x f).ctx n x = f (s.ctx n x) := by
  by_cases h : x = 0 <;> simp [State.ctx, State.modCtx_eq, h]

/-- Changing a context leaves the core's other one. -/
theorem State.ctx_modCtx_beside {n : Nat} {x x' : Nat} (hx : x < 2) (hx' : x' < 2) (h : x' ≠ x)
    (f : SeqCtx → SeqCtx) : (s.modCtx n x f).ctx n x' = s.ctx n x' := by
  obtain ⟨rfl, rfl⟩ | ⟨rfl, rfl⟩ : (x = 0 ∧ x' = 1) ∨ (x = 1 ∧ x' = 0) := by omega
  · simp [State.ctx, State.modCtx_eq]
  · simp [State.ctx, State.modCtx_eq]

/-- Changing a context leaves the other cores. -/
theorem State.core_modCtx_other {n n' : Nat} (h : n' ≠ n) (x : Nat) (f : SeqCtx → SeqCtx) :
    (s.modCtx n x f).core n' = s.core n' := by
  rw [State.modCtx_eq, State.core_setCore_other s h]

/-- Changing a context leaves the vector registers of its core. -/
@[simp] theorem State.vregs_modCtx (n n' x : Nat) (f : SeqCtx → SeqCtx) :
    ((s.modCtx n x f).core n').vregs = (s.core n').vregs := by
  by_cases h : n' = n
  · subst h; by_cases hx : x = 0 <;> simp [State.modCtx_eq, hx]
  · rw [State.core_modCtx_other s h]

/-- Changing a context leaves the mask registers of its core. -/
@[simp] theorem State.masks_modCtx (n n' x : Nat) (f : SeqCtx → SeqCtx) :
    ((s.modCtx n x f).core n').masks = (s.core n').masks := by
  by_cases h : n' = n
  · subst h; by_cases hx : x = 0 <;> simp [State.modCtx_eq, hx]
  · rw [State.core_modCtx_other s h]

/-- Changing a context leaves the stage buffers. -/
@[simp] theorem State.stage_modCtx (n n' x : Nat) (f : SeqCtx → SeqCtx) :
    ((s.modCtx n x f).core n').stage = (s.core n').stage := by
  by_cases h : n' = n
  · subst h; by_cases hx : x = 0 <;> simp [State.modCtx_eq, hx]
  · rw [State.core_modCtx_other s h]

/-- Changing a context leaves the accumulators. -/
@[simp] theorem State.acc_modCtx (n n' x : Nat) (f : SeqCtx → SeqCtx) :
    ((s.modCtx n x f).core n').acc = (s.core n').acc := by
  by_cases h : n' = n
  · subst h; by_cases hx : x = 0 <;> simp [State.modCtx_eq, hx]
  · rw [State.core_modCtx_other s h]

/-- Changing a context leaves every register. -/
@[simp] theorem State.reg_modCtx (n x : Nat) (f : SeqCtx → SeqCtx) (k : Nat) : (s.modCtx n x f).reg k = s.reg k :=
  rfl

/-- Setting a core leaves every register. -/
@[simp] theorem State.reg_setCore (n : Nat) (c : Core) (k : Nat) : (s.setCore n c).reg k = s.reg k := rfl

/-- Setting a register leaves every core. -/
@[simp] theorem State.core_setReg (k v n : Nat) : (s.setReg k v).core n = s.core n := rfl

/-- Setting a register leaves every context. -/
@[simp] theorem State.ctx_setReg (k v n x : Nat) : (s.setReg k v).ctx n x = s.ctx n x := rfl

/-- Of two settings of a core the later stands. -/
@[simp] theorem State.setCore_setCore (n : Nat) (c c' : Core) : (s.setCore n c).setCore n c' = s.setCore n c' := by
  simp [State.setCore]

/-- Of two settings of a register the later stands. -/
@[simp] theorem State.setReg_setReg (k v v' : Nat) : (s.setReg k v).setReg k v' = s.setReg k v' := by
  simp [State.setReg]

/-- Two changes of a context are one. -/
@[simp] theorem State.modCtx_modCtx (n x : Nat) (f g : SeqCtx → SeqCtx) :
    (s.modCtx n x f).modCtx n x g = s.modCtx n x fun c => g (f c) := by
  by_cases h : x = 0 <;> simp [State.modCtx_eq, h]

/-- Changing a context changes nothing else of the module. -/
theorem CtxBecomes.of_modCtx {s : State} {n x : Nat} (hx : x < 2) (f : SeqCtx → SeqCtx) :
    CtxBecomes s (s.modCtx n x f) n x (f (s.ctx n x)) := by
  refine ⟨rfl, fun m hm => State.core_modCtx_other s hm x f, ?_, by simp, fun y hy hne =>
    State.ctx_modCtx_beside s hx hy hne f⟩
  by_cases h : x = 0 <;> simp [State.modCtx_eq, h]

/-! Queues and ports. -/

@[simp] theorem State.queue_modQueue_same (q : Nat) (f : Queue → Queue) :
    (s.modQueue q f).queue q = f (s.queue q) := by
  simp [State.queue]

theorem State.queue_modQueue_other {q q' : Nat} (h : q' ≠ q) (f : Queue → Queue) :
    (s.modQueue q f).queue q' = s.queue q' := by
  simp [State.queue, Sparse.get_put_other _ h]

@[simp] theorem State.port_modPort_same (p : Nat) (f : Port → Port) : (s.modPort p f).port p = f (s.port p) := by
  simp [State.port]

theorem State.port_modPort_other {p p' : Nat} (h : p' ≠ p) (f : Port → Port) :
    (s.modPort p f).port p' = s.port p' := by
  simp [State.port, Sparse.get_put_other _ h]

/-! Lists of changes. -/

@[simp] theorem State.each_nil {α : Type} (f : α → State → State) : s.each [] f = s := rfl

@[simp] theorem State.each_cons {α : Type} (a : α) (l : List α) (f : α → State → State) :
    s.each (a :: l) f = (f a s).each l f := rfl

/-- What every change of a list keeps, the list keeps. -/
theorem State.each_keeps {α : Type} (P : State → Prop) (f : α → State → State) :
    ∀ (l : List α) (s : State), (∀ a ∈ l, ∀ s, P s → P (f a s)) → P s → P (s.each l f)
  | [], _, _, h => h
  | a :: l, s, hf, h =>
    State.each_keeps P f l (f a s) (fun b hb => hf b (List.mem_cons_of_mem _ hb)) (hf a (List.mem_cons_self ..) s h)

/-! What a command answers. -/

/-- A command that names units that exist completes; the queue and the fuses are as they were. -/
@[simp] theorem whenUnits_true (t : State) :
    whenUnits s true t = .next { t with fuse := s.fuse, pending := s.pending } := rfl

/-- A command that names a unit that does not exist faults. -/
@[simp] theorem whenUnits_false (t : State) : whenUnits s false t = .fault .noSuchUnit := rfl

/-- All that a guarded command can answer. -/
theorem whenUnits_cases {ok : Bool} {t u : State} (h : whenUnits s ok t = .next u) :
    ok = true ∧ u = { t with fuse := s.fuse, pending := s.pending } := by
  cases ok
  · cases h
  · exact ⟨rfl, by injection h with h; exact h.symm⟩

/-! The shared form of a slot operation. -/

/-- Which units exist. -/
theorem okCore_okCtx {n x : Nat} (hn : n < 208) (hx : x < 2) : (okCore n && okCtx x) = true := by
  simp [okCore, okCtx, hn, hx]

/-- A slot operation whose slot waits and whose interlock lets it run has its effect. -/
theorem State.onSlot_runs {s : State} {n x j op : Nat} {b : OpenBundle} {w : Word64} {rest : List (Nat × Word64)}
    (h : SlotWaits s n x j op b w rest) (hj : ¬(j = 5 ∨ j = 6)) (ready : State → OpenBundle → Nat → Bool)
    (eff : OpenBundle → Nat → State → State) (hr : ready s b w.toNat = true) :
    s.onSlot n x j op ready eff = eff b w.toNat (slotTaken s n x j b rest) := by
  obtain ⟨h1, h2, h3, h4, h5, -⟩ := h
  have ht : s.tryReload n x = s := by simp [State.tryReload, h1]
  have ho : s.openNext n x = (s, some b) := by simp [State.openNext, ht, h2]
  simp [State.onSlot, ho, h3, h4, h5, hr, slotTaken, hj]

/-- An operation of the vector or row engine whose slot waits and whose interlock lets it run has its effect. -/
theorem State.onUnit_runs {s : State} {n x j op : Nat} {b : OpenBundle} {w : Word64} {rest : List (Nat × Word64)}
    (h : SlotWaits s n x j op b w rest) (hj : j = 5 ∨ j = 6) (ready : State → OpenBundle → Nat → Bool)
    (foot : State → OpenBundle → Nat → Bool → Foot) (eff : OpenBundle → Nat → State → State)
    (hr : ready s b w.toNat = true) :
    s.onUnit n x j op ready foot eff = eff b w.toNat (slotTaken s n x j b rest) := by
  obtain ⟨h1, h2, h3, h4, h5, h6, h7⟩ := h
  have ht : s.tryReload n x = s := by simp [State.tryReload, h1]
  have ho : s.openNext n x = (s, some b) := by simp [State.openNext, ht, h2]
  have hq : (s.core n).unitq j = [] := by
    rcases hj with rfl | rfl
    · simpa [Core.unitq] using h6
    · simpa [Core.unitq] using h7
  simp [State.onUnit, ho, h3, h4, h5, hr, slotTaken, hj, hq]

/-- Taking a slot leaves every register. -/
@[simp] theorem slotTaken_reg (n x j : Nat) (b : OpenBundle) (rest : List (Nat × Word64)) (k : Nat) :
    (slotTaken s n x j b rest).reg k = s.reg k := by
  unfold slotTaken; split <;> rfl

/-- Taking a slot leaves the vector registers. -/
@[simp] theorem slotTaken_vregs (n x j : Nat) (b : OpenBundle) (rest : List (Nat × Word64)) (m : Nat) :
    ((slotTaken s n x j b rest).core m).vregs = (s.core m).vregs := by
  unfold slotTaken
  by_cases hm : m = n
  · subst hm; split <;> simp [State.stirred]
  · split <;> simp [State.stirred, State.core_setCore_other _ hm]

/-- Taking a slot leaves the mask registers. -/
@[simp] theorem slotTaken_masks (n x j : Nat) (b : OpenBundle) (rest : List (Nat × Word64)) (m : Nat) :
    ((slotTaken s n x j b rest).core m).masks = (s.core m).masks := by
  unfold slotTaken
  by_cases hm : m = n
  · subst hm; split <;> simp [State.stirred]
  · split <;> simp [State.stirred, State.core_setCore_other _ hm]

/-- Taking a slot leaves the memories outside the cores. -/
@[simp] theorem slotTaken_near (n x j : Nat) (b : OpenBundle) (rest : List (Nat × Word64)) :
    (slotTaken s n x j b rest).near = s.near := by
  unfold slotTaken; split <;> rfl

/-- Taking a slot leaves it the first of the open bundle's slots to go. -/
theorem slotTaken_ctx (n x j : Nat) (b : OpenBundle) (rest : List (Nat × Word64)) :
    (slotTaken s n x j b rest).ctx n x = { s.ctx n x with cur := some { b with todo := rest } } := by
  unfold slotTaken
  split
  · by_cases hx : x = 0 <;> simp [State.stirred, State.ctx, State.modCtx_eq, hx]
  · simp

end Sys2Proof.Machine
end

