-- ==== Sys2Proof/Laws/Memory.lean ====
section
/-! SUPPORT. The laws of the byte memories: every operation keeps the canonical form, what is written reads back,
and what is not written stays. -/

namespace Sys2Proof.Machine

/-! Cells. -/

/-- Writing bytes keeps the canonical form. -/
theorem writeCells_wf {d : Byte} :
    ∀ (bs : Bytes) {m : List Host.Cell} (a : Nat), Sparse.wf d m = true → Sparse.wf d (writeCells d m a bs) = true
  | [], _, _, h => h
  | b :: bs, _, a, h => writeCells_wf bs (a + 1) (Sparse.wf_set h a b)

/-- A byte outside those written stays. -/
theorem writeCells_get_outside {d : Byte} :
    ∀ (bs : Bytes) {m : List Host.Cell} (a k : Nat), Sparse.wf d m = true → (k < a ∨ a + bs.length ≤ k) →
      Sparse.get d (writeCells d m a bs) k = Sparse.get d m k
  | [], _, _, _, _, _ => rfl
  | b :: bs, m, a, k, h, hk => by
    rw [List.length_cons] at hk
    have hne : k ≠ a := by omega
    rw [writeCells, writeCells_get_outside bs (a + 1) k (Sparse.wf_set h a b) (by omega), Sparse.get_set h, if_neg hne]

/-- A byte among those written reads back. -/
theorem writeCells_get_inside {d : Byte} :
    ∀ (bs : Bytes) {m : List Host.Cell} (a i : Nat), Sparse.wf d m = true → (hi : i < bs.length) →
      Sparse.get d (writeCells d m a bs) (a + i) = bs[i]
  | [], _, _, _, _, hi => absurd hi (Nat.not_lt_zero _)
  | b :: bs, m, a, 0, h, _ => by
    rw [writeCells, writeCells_get_outside bs (a + 1) (a + 0) (Sparse.wf_set h a b) (by omega), Sparse.get_set h]
    simp
  | b :: bs, m, a, i + 1, h, hi => by
    rw [List.length_cons] at hi
    have e : a + (i + 1) = a + 1 + i := by omega
    rw [writeCells, e, writeCells_get_inside bs (a + 1) i (Sparse.wf_set h a b) (by omega)]
    simp

/-- Reading the bytes that were written. -/
theorem readCells_writeCells {d : Byte} (bs : Bytes) {m : List Host.Cell} (a : Nat) (h : Sparse.wf d m = true) :
    readCells d (writeCells d m a bs) a bs.length = bs := by
  apply List.ext_getElem
  · simp [readCells]
  · intro i h1 h2
    simp [readCells, writeCells_get_inside bs a i h h2]

/-- Reading bytes that a write does not touch. -/
theorem readCells_writeCells_outside {d : Byte} (bs : Bytes) {m : List Host.Cell} (a b n : Nat)
    (h : Sparse.wf d m = true) (hd : b + n ≤ a ∨ a + bs.length ≤ b) :
    readCells d (writeCells d m a bs) b n = readCells d m b n := by
  apply List.map_congr_left
  intro i hi
  have := List.mem_range.mp hi
  exact writeCells_get_outside bs a (b + i) h (by omega)

/-! The canonical form of all memories. -/

/-- What the canonical form of all memories says. -/
theorem State.memWf_iff (s : State) : s.memWf = true ↔
    Sparse.wf emptyByte s.near = true ∧ Sparse.wf emptyByte s.far = true ∧ Sparse.wf emptyByte s.die = true ∧
      Sparse.wf emptyByte s.host = true ∧ Sparse.wf erasedByte s.flash = true ∧
      ∀ p ∈ s.cores, Sparse.wf emptyByte p.2.stage = true := by
  simp only [State.memWf, Bool.and_eq_true, List.all_eq_true, and_assoc]

/-- States with the same memories and cores are canonical alike. -/
theorem State.memWf_congr {s t : State} (h1 : t.near = s.near) (h2 : t.far = s.far) (h3 : t.die = s.die)
    (h4 : t.host = s.host) (h5 : t.flash = s.flash) (h6 : t.cores = s.cores) : t.memWf = s.memWf := by
  simp only [State.memWf, h1, h2, h3, h4, h5, h6]

/-- The memory right after reset is canonical. -/
theorem State.reset_memWf : State.reset.memWf = true := rfl

/-- A core's stage buffer is canonical when all memories are. -/
theorem State.memWf_stage {s : State} (h : s.memWf = true) (n : Nat) : Sparse.wf emptyByte (s.core n).stage = true := by
  have hc := ((State.memWf_iff s).mp h).2.2.2.2.2
  unfold State.core
  generalize s.cores = m at hc
  induction m with
  | nil => rfl
  | cons a m ih =>
    obtain ⟨j, c⟩ := a
    simp only [Sparse.get]
    split
    · exact hc (j, c) (List.mem_cons_self ..)
    · split
      · rfl
      · exact ih fun p hp => hc p (List.mem_cons_of_mem _ hp)

/-- Setting a core whose stage buffer is canonical keeps the form. -/
theorem State.setCore_memWf {s : State} (h : s.memWf = true) (n : Nat) {c : Core}
    (hc : Sparse.wf emptyByte c.stage = true) : (s.setCore n c).memWf = true := by
  obtain ⟨h1, h2, h3, h4, h5, h6⟩ := (State.memWf_iff s).mp h
  refine (State.memWf_iff _).mpr ⟨h1, h2, h3, h4, h5, fun p hp => ?_⟩
  rcases Sparse.mem_put hp with rfl | hp
  · exact hc
  · exact h6 p hp

/-- A change of a core that keeps its stage buffer keeps the form. -/
theorem State.modCore_memWf {s : State} (h : s.memWf = true) (n : Nat) {f : Core → Core}
    (hf : ∀ c, (f c).stage = c.stage) : (s.modCore n f).memWf = true :=
  State.setCore_memWf h n (by rw [hf]; exact State.memWf_stage h n)

/-- A change of a context keeps the form. -/
theorem State.modCtx_memWf {s : State} (h : s.memWf = true) (n x : Nat) (f : SeqCtx → SeqCtx) :
    (s.modCtx n x f).memWf = true :=
  State.modCore_memWf h n fun c => by by_cases hx : x = 0 <;> simp [hx]

/-- Setting a register keeps the form. -/
@[simp] theorem State.setReg_memWf (s : State) (k v : Nat) : (s.setReg k v).memWf = s.memWf := rfl
/-- A change of a queue keeps the form. -/
@[simp] theorem State.modQueue_memWf (s : State) (q : Nat) (f : Queue → Queue) :
    (s.modQueue q f).memWf = s.memWf := rfl
/-- A change of a port keeps the form. -/
@[simp] theorem State.modPort_memWf (s : State) (p : Nat) (f : Port → Port) : (s.modPort p f).memWf = s.memWf := rfl
/-- Sending something keeps the form. -/
@[simp] theorem State.emit_memWf (s : State) (o : Out) : (s.emit o).memWf = s.memWf := rfl
/-- Drawing a free value keeps the form. -/
@[simp] theorem State.drawn_memWf (s : State) : s.drawn.memWf = s.memWf := rfl

/-- Writing bytes into any memory keeps the form. -/
theorem State.writeMem_memWf {s : State} (h : s.memWf = true) (sp : Space) (a : Nat) (bs : Bytes) :
    (s.writeMem sp a bs).memWf = true := by
  obtain ⟨h1, h2, h3, h4, h5, h6⟩ := (State.memWf_iff s).mp h
  cases sp with
  | near => exact (State.memWf_iff _).mpr ⟨writeCells_wf bs a h1, h2, h3, h4, h5, h6⟩
  | far p =>
    rw [State.writeMem]
    split
    · exact h
    · exact (State.memWf_iff _).mpr ⟨h1, writeCells_wf bs _ h2, h3, h4, h5, h6⟩
  | die d => exact (State.memWf_iff _).mpr ⟨h1, h2, writeCells_wf bs _ h3, h4, h5, h6⟩
  | stage c => exact State.setCore_memWf h c (writeCells_wf bs a (State.memWf_stage h c))
  | host => exact (State.memWf_iff _).mpr ⟨h1, h2, h3, writeCells_wf bs a h4, h5, h6⟩

/-- Writing a number keeps the form. -/
theorem State.writeNum_memWf {s : State} (h : s.memWf = true) (sp : Space) (a n v : Nat) :
    (s.writeNum sp a n v).memWf = true := State.writeMem_memWf h sp a _

/-- Marking keeps the form. -/
theorem State.markMem_memWf {s : State} (h : s.memWf = true) (sp : Space) (a n : Nat) :
    (s.markMem sp a n).memWf = true := by
  cases sp with
  | stage c => exact State.modCore_memWf h c fun _ => rfl
  | _ => exact h

/-- Programming the flash keeps the form. -/
theorem State.flashWrite_memWf {s : State} (h : s.memWf = true) (a : Nat) (bs : Bytes) :
    (s.flashWrite a bs).memWf = true := by
  obtain ⟨h1, h2, h3, h4, h5, h6⟩ := (State.memWf_iff s).mp h
  exact (State.memWf_iff _).mpr ⟨h1, h2, h3, h4, writeCells_wf bs a h5, h6⟩

/-- Erasing a sector keeps the form. -/
theorem State.flashErase_memWf {s : State} (h : s.memWf = true) (a : Nat) : (s.flashErase a).memWf = true := by
  obtain ⟨h1, h2, h3, h4, h5, h6⟩ := (State.memWf_iff s).mp h
  exact (State.memWf_iff _).mpr ⟨h1, h2, h3, h4, Sparse.wf_clear h5 _ _, h6⟩

/-! Reading after writing. -/

/-- What was written reads back; a far port out of service drops what is written to it (R346). -/
theorem State.readMem_writeMem {s : State} (h : s.memWf = true) (sp : Space) (a : Nat) (bs : Bytes)
    (hd : ∀ p, sp = .far p → s.farDown p = false) : (s.writeMem sp a bs).readMem sp a bs.length = bs := by
  obtain ⟨h1, h2, h3, h4, h5, h6⟩ := (State.memWf_iff s).mp h
  cases sp with
  | near => exact readCells_writeCells bs a h1
  | far p =>
    rw [State.writeMem, hd p rfl]
    exact readCells_writeCells bs _ h2
  | die d => exact readCells_writeCells bs _ h3
  | stage c =>
    simp only [State.writeMem, State.readMem, State.modCore_eq, State.core_setCore_same]
    exact readCells_writeCells bs a (State.memWf_stage h c)
  | host => exact readCells_writeCells bs a h4

/-- What was not written stays. -/
theorem State.readMem_writeMem_outside {s : State} (h : s.memWf = true) (sp : Space) (a b n : Nat) (bs : Bytes)
    (hd : b + n ≤ a ∨ a + bs.length ≤ b) : (s.writeMem sp a bs).readMem sp b n = s.readMem sp b n := by
  obtain ⟨h1, h2, h3, h4, h5, h6⟩ := (State.memWf_iff s).mp h
  cases sp with
  | near => exact readCells_writeCells_outside bs a b n h1 hd
  | far p =>
    rw [State.writeMem]
    split
    · rfl
    · exact readCells_writeCells_outside bs _ _ n h2 (by omega)
  | die d => exact readCells_writeCells_outside bs _ _ n h3 (by omega)
  | stage c =>
    simp only [State.writeMem, State.readMem, State.modCore_eq, State.core_setCore_same]
    exact readCells_writeCells_outside bs a b n (State.memWf_stage h c) hd
  | host => exact readCells_writeCells_outside bs a b n h4 hd

/-- A number that was written reads back. -/
theorem State.readNum_writeNum {s : State} (h : s.memWf = true) (sp : Space) (a n v : Nat)
    (hd : ∀ p, sp = .far p → s.farDown p = false) : (s.writeNum sp a n v).readNum sp a n = v % 256 ^ n := by
  have := State.readMem_writeMem h sp a (leBytes n v) hd
  rw [leBytes_length] at this
  rw [State.readNum, State.writeNum, this, ofLe_leBytes]

end Sys2Proof.Machine
end

