-- ==== Sys2Proof/Tests/Slice0.lean ====
section
/-! SUPPORT. Tests: commands that name no existing unit, single steps from the spec's own tables and worked examples, and
for every statement with hypotheses a concrete state and operands that meet them. -/

open Sys2Proof Sys2Proof.Machine Sys2Proof.Claims

namespace Sys2Proof.Tests

set_option Elab.async false

/-! Commands that name no existing unit: each check of WellFormed refuses its first value outside. -/

theorem test_wf_core : Instr.wf (.tileNanClear 208) = false := by decide
theorem test_wf_ctx : Instr.wf (.emptyBundle 207 2) = false := by decide
theorem test_wf_two : Instr.wf (.product 0 ⟨0, false⟩ 2) = false := by decide
theorem test_wf_four : Instr.wf (.expanderBlock 0 4 ⟨false, 0⟩) = false := by decide
theorem test_wf_queue : Instr.wf (.runCountHalt 65536) = false := by decide
theorem test_wf_port : Instr.wf (.nop 0 0 8) = false := by decide
theorem test_wf_fn : Instr.wf (.registerWrite 9 8 8 0) = false := by decide
theorem test_wf_act : Instr.wf (.carPoisonClear 0) = false := by decide
theorem test_wf_tslot : Instr.wf (.tableLoadCommit ⟨36, false⟩) = false := by decide
theorem test_wf_slot : Instr.wf (.bucketStart 0 128) = false := by decide
theorem test_wf_stack : Instr.wf (.patrolScrub 32 [] []) = false := by decide
theorem test_wf_cue : Instr.wf (.cueFire 512) = false := by decide
theorem test_wf_rail : Instr.wf (.railSample 14 0) = false := by decide
theorem test_wf_temp : Instr.wf (.tempSample 10 0) = false := by decide
theorem test_wf_die : Instr.wf (.updateIr 10 .bypass) = false := by decide
theorem test_wf_vec : Instr.wf (.msixMask 1 16) = false := by decide
theorem test_wf_last_units : Instr.wf (.nop 207 1 7) = true := by decide

/-- A command that names no existing unit faults by name. -/
theorem test_absent_unit_faults : exec (.tileNanClear 208) State.reset = .fault .noSuchUnit := rfl

/-- No word of the opcode table spells a command. -/
theorem test_no_word_spells_a_command : decodeTableWord 64 0 = none := rfl

/-! Small states. -/

/-- A module out of reset in PHASE 0x6 at tick 1,000. -/
def up : State :=
  State.setFld { State.reset with power := { State.reset.power with inReset := false }, now := 1000 } Reg.topState
    Fld.topStatePhase 6

/-- An open bundle with one slot left to run. -/
def bundle (j w : Nat) : OpenBundle :=
  { word := 0, length := 2, off := 5, flags := 0, tag := 0, step := 0, todo := [(j, BitVec.ofNat 64 w)],
    sregs := [(1, 7)], preds := 0, ctl := .seq }

/-- A state in which slot `j` with word `w` waits on context `x` of core `n`. -/
def waiting (s : State) (n x j w : Nat) : State :=
  s.modCtx n x fun c => { c with cur := some (bundle j w), queue := some 3, words := 64 }

/-- The word of an unguarded slot of opcode `op` with `fields` in its other bits. -/
def slot (op fields : Nat) : Nat := op * 2 ^ 58 + fields

/-! Witnesses: slots of the vector engine and of CTRL. -/

/-- The slot of a row of a table waits on context 1 of core 207. -/
def Waits (j op f : Nat) : Prop :=
  let w := slot op f
  SlotWaits (waiting up 207 1 j w) 207 1 j op (bundle j w) (BitVec.ofNat 64 w) []

theorem wit_FloatOperations : (∀ r ∈ floatRows, Waits 5 r.2.1 0) ∧ ∀ r ∈ fixedRows, Waits 5 r.2.1 0 ∧ vecTy (slot r.2.1 0) = 0 := by
  unfold Waits SlotWaits; decide +kernel
theorem wit_WordOperations : (∀ r ∈ wordRows, Waits 5 r.2.1 0) ∧ ∀ r ∈ shiftRows, Waits 5 r.2.1 0 := by
  unfold Waits SlotWaits; decide +kernel
theorem wit_MasksAndReductions : (∀ r ∈ maskRows, Waits 5 r.2.1 0) ∧ (∀ r ∈ reduceRows, Waits 5 r.2.1 0) ∧
    Waits 5 0x3C 0 ∧ Waits 5 0x3D 0 := by
  unfold Waits SlotWaits; decide +kernel
theorem wit_LaneMoves : ∀ op ∈ [0x28, 0x29, 0x2A, 0x2B], Waits 5 op 0 := by unfold Waits SlotWaits; decide +kernel
theorem wit_ScalarsAndPredicates : (∀ r ∈ scalarRows, Waits 0 r.2.1 0) ∧ (∀ r ∈ predRows, Waits 0 r.2.1 0) ∧
    ∀ op ∈ [0x10, 0x11, 0x12, 0x26, 0x29, 0x14, 0x15], Waits 0 op 0 := by
  unfold Waits SlotWaits; decide +kernel

/-- Stream words at host address 0: an empty bundle, a LOOP over the next bundle, two empty bundles. -/
def streamed (s : State) : State :=
  s.writeMem .host 0 (leBytes 4 0x10000 ++ leBytes 4 0x1030000 ++ leBytes 8 (slot 0x24 3) ++ leBytes 4 0x10000 ++
    leBytes 4 0x10000)

/-- A slot of CTRL at word 0 of that stream, its bundle three words long. -/
def ctrlAt (op f : Nat) (loops : List LoopLvl) : State :=
  (waiting (streamed up) 3 0 0 (slot op f)).modCtx 3 0 fun c => { c with words := 6, loops := loops }

/-- The level of a loop that stands at the first of two passes. -/
def level : LoopLvl := { count := 2, index := 0, first := 0, last := 0 }

theorem wit_ControlFlow :
    (let s := ctrlAt 0x20 1 []
     SlotWaits s 3 0 0 0x20 (bundle 0 (slot 0x20 1)) (BitVec.ofNat 64 (slot 0x20 1)) [] ∧ s.targetOk (s.ctx 3 0) 1 = true) ∧
    (let s := ctrlAt 0x21 1 []
     SlotWaits s 3 0 0 0x21 (bundle 0 (slot 0x21 1)) (BitVec.ofNat 64 (slot 0x21 1)) [] ∧ s.targetOk (s.ctx 3 0) 1 = true ∧
       condHolds (bits (slot 0x21 1) 45 3) 0 0 = true) ∧
    (SlotWaits (ctrlAt 0x21 (2 ^ 45) []) 3 0 0 0x21 (bundle 0 (slot 0x21 (2 ^ 45))) (BitVec.ofNat 64 (slot 0x21 (2 ^ 45))) [] ∧
       condHolds (bits (slot 0x21 (2 ^ 45)) 45 3) 0 0 = false) ∧
    (let s := ctrlAt 0x24 4 []
     let c := s.ctx 3 0
     SlotWaits s 3 0 0 0x24 (bundle 0 (slot 0x24 4)) (BitVec.ofNat 64 (slot 0x24 4)) [] ∧ c.loops.length < 4 ∧
       ((s.bundleStarts c c.words 0).any fun p => p.1 = 4) = true ∧ 4 + hdrLength (s.streamWord c 4) ≤ c.words ∧
       ∀ l ∈ c.loops.head?, 4 ≤ l.last) ∧
    (SlotWaits (ctrlAt 0x25 0 [level]) 3 0 0 0x25 (bundle 0 (slot 0x25 0)) (BitVec.ofNat 64 (slot 0x25 0)) [] ∧
      ((ctrlAt 0x25 0 [level]).ctx 3 0).loops ≠ []) := by
  refine ⟨?_, ?_, ?_, ?_, ?_⟩ <;> unfold SlotWaits <;> decide +kernel

/-- ACD of descriptor 0 with BASE from s1 and USES from s1. -/
def acdWord : Nat := slot 0x28 (2 ^ 42 + 2 ^ 37 * 2)

/-- A bundle that holds an ACD whose scalars give ENTRIES 1 and USES 1. -/
def acdBundle : OpenBundle := { bundle 0 acdWord with sregs := [(1, 2 ^ 20), (2, 1)] }

theorem wit_Descriptors :
    (let s := up.modCtx 3 0 fun c => { c with cur := some acdBundle }
     SlotWaits s 3 0 0 0x28 acdBundle (BitVec.ofNat 64 acdWord) [] ∧ (s.core 3).acdHeld.contains 0 = false ∧
       bits (s.reg (Reg.mxAcd0 3 0)) 48 16 = 0 ∧ bit ((s.setReg (Reg.mxAcd1 3 0) (2 ^ 16)).reg (Reg.mxAcd1 3 0)) 16 = true ∧
       bits (acdBundle.sreg 2) 0 16 ≠ 0 ∧ bits (acdBundle.sreg 1) 20 20 ≠ 0 ∧
       bits (acdBundle.sreg 1) 0 19 + bits (acdBundle.sreg 1) 20 20 ≤ 524288) ∧
    (Waits 0 0x30 3 ∧ (waiting up 207 1 0 (slot 0x30 3)).libContext 3 = some 2) ∧
    ((up.modCtx 3 0 fun c => { c with lib := some { fn := 1, arg := 0, context := 2 } }).ctx 3 0).lib.isSome = true := by
  refine ⟨?_, ?_, ?_⟩ <;> (try unfold Waits) <;> (try unfold SlotWaits) <;> decide +kernel

/-! Witnesses: the vector engine's memory operations and the sort unit. -/

theorem wit_Loads :
    (let w := slot 0x2C (2 ^ 4 * 524160)
     let s := waiting up 207 0 5 w
     let b := bundle 5 w
     SlotWaits s 207 0 5 0x2C b (BitVec.ofNat 64 w) [] ∧ s.accReady 207 0 b w = true ∧ vecEntry b w ≤ 524160 ∧
       ∀ i, i < 128 → s.lane 207 0 w i = true → vecEntry b w + i < (s.accRegion 207 0).2) ∧
    (let w := slot 0x30 (2 ^ 7 * 0x60)
     let s := waiting up 207 0 5 w
     let b := bundle 5 w
     SlotWaits s 207 0 5 0x30 b (BitVec.ofNat 64 w) [] ∧ s.readReady 207 0 (s.ldAccs 207 0 b w) = true ∧
       s.outside 207 0 (s.ldAccs 207 0 b w) = none) ∧
    (let w := slot 0x32 0
     let s := waiting up 207 0 5 w
     let b := bundle 5 w
     SlotWaits s 207 0 5 0x32 b (BitVec.ofNat 64 w) [] ∧ s.readReady 207 0 (s.packedAccs 207 0 b w) = true ∧
       s.outside 207 0 (s.packedAccs 207 0 b w) = none) ∧
    (let w := slot 0x34 (2 ^ 7 * 0x60)
     let s := waiting up 207 0 5 w
     let b := bundle 5 w
     SlotWaits s 207 0 5 0x34 b (BitVec.ofNat 64 w) [] ∧ s.readReady 207 0 (s.indexAccs 207 0 b w) = true ∧
       s.outside 207 0 (s.indexAccs 207 0 b w) = none) := by
  refine ⟨?_, ?_, ?_, ?_⟩ <;> unfold SlotWaits <;> decide +kernel

theorem wit_StaAndStc :
    (let w := slot 0x2D 0
     let s := waiting up 207 0 5 w
     let b := bundle 5 w
     SlotWaits s 207 0 5 0x2D b (BitVec.ofNat 64 w) [] ∧ s.accReady 207 0 b w = true ∧ vecEntry b w ≤ 524160 ∧
       (∀ i, i < 128 → s.lane 207 0 w i = true → vecEntry b w + i < (s.accRegion 207 0).2) ∧
       Sparse.wf 0 (s.core 207).acc = true ∧ Sparse.wf false (s.core 207).accPoison = true) ∧
    (let w := slot 0x33 0
     let s := waiting up 207 0 5 w
     let b := bundle 5 w
     s.memWf = true ∧ SlotWaits s 207 0 5 0x33 b (BitVec.ofNat 64 w) [] ∧
       s.writeReady 207 0 (s.packedAccs 207 0 b w) = true ∧ s.outside 207 0 (s.packedAccs 207 0 b w) = none) := by
  refine ⟨?_, ?_⟩ <;> unfold SlotWaits <;> decide +kernel

theorem wit_Stores :
    (let w := slot 0x35 (2 ^ 7 * 0x60)
     let s := waiting up 207 0 5 w
     let b := bundle 5 w
     s.memWf = true ∧ SlotWaits s 207 0 5 0x35 b (BitVec.ofNat 64 w) [] ∧
       s.writeReady 207 0 (s.indexAccs 207 0 b w) = true ∧ s.outside 207 0 (s.indexAccs 207 0 b w) = none ∧
       8 ≤ fmtBits (vecFmt w)) ∧
    (let w := slot 0x31 (2 ^ 7 * 0x60)
     let s := waiting up 207 0 5 w
     let b := bundle 5 w
     s.memWf = true ∧ SlotWaits s 207 0 5 0x31 b (BitVec.ofNat 64 w) [] ∧
       s.writeReady 207 0 (s.stAccs 207 0 b w) = true ∧ s.outside 207 0 (s.stAccs 207 0 b w) = none) := by
  refine ⟨?_, ?_⟩ <;> unfold SlotWaits <;> decide +kernel

theorem wit_CompareAndConvert : ∀ op ∈ [0x1C, 0x1B], Waits 5 op 0 := by unfold Waits SlotWaits; decide +kernel

theorem wit_SortUnit : (∀ op ∈ [0x2E, 0x2F, 0x36, 0x37], Waits 5 op 0) ∧
    ((waiting up 207 1 5 (slot 0x2E 0)).core 207).sort.filled + 128 ≤ 4096 ∧
    4096 < ((up.modCore 207 fun k => { k with sort := { k.sort with filled := 3969 } }).core 207).sort.filled + 128 ∧
    ((waiting up 207 1 5 (slot 0x2F 0)).core 207).sort.running = none ∧
    ((up.modCore 207 fun k => { k with sort := { k.sort with running := some (true, 0, false) } }).core 207).sort.running =
      some (true, 0, false) := by
  unfold Waits SlotWaits; decide +kernel

/-! Witnesses: row operations, bundles and the SYNC slot. -/

/-- The 64 bytes of a row descriptor of one row and one element with formats `f`. -/
def rowDescBytes (f : Nat) : Bytes := List.replicate 32 0 ++ leBytes 8 f ++ List.replicate 24 0

/-- A slot of the row engine waits with that descriptor in the stage buffer. -/
def rowAt (op : Nat) : State := (waiting up 207 0 6 (slot op 0)).writeMem (.stage 207) 0 (rowDescBytes 0x60)

theorem wit_RowOperations :
    (∀ r ∈ rowRows, (let w := slot r.2 0
      SlotWaits (rowAt r.2) 207 0 6 r.2 (bundle 6 w) (BitVec.ofNat 64 w) [] ∧ RowRuns (rowAt r.2) 207 0 (bundle 6 w) w)) ∧
    (∀ r ∈ rowRows, (rowAt r.2).memWf = true ∧ (∀ p ∈ (rowAt r.2).cores, Sparse.wf 0 p.2.acc = true ∧ Sparse.wf false p.2.accPoison = true) ∧
      Sparse.rising none (rowAt r.2).buckets = true ∧ Sparse.rising none (rowAt r.2).railRuns = true ∧
      Sparse.rising none (rowAt r.2).railOver = true) ∧
    ∀ op ∈ [9, 10], (let w := slot op 0
      SlotWaits (rowAt op) 207 0 6 op (bundle 6 w) (BitVec.ofNat 64 w) [] ∧ RowRuns (rowAt op) 207 0 (bundle 6 w) w ∧
        (rowAt op).memWf = true) := by
  refine ⟨?_, ?_, ?_⟩ <;> (try unfold SlotWaits RowRuns) <;> decide +kernel

/-- Queue 3 of act 0 with a stream of two empty bundles bound to context 0 of core 3; the first is a sync point. -/
def bound : State :=
  let s := (up.writeMem .host 0 (leBytes 8 0x20300 ++ leBytes 8 0x20100)).modCtx 3 0 fun c =>
    { c with queue := some 3, kind := 1, words := 4, resume := 4096, resumeKib := 1, off := 9 }
  s.modQueue 3 fun k => { k with bound := some (3, 0), begun := true }

/-- An open bundle whose slots have run, with flags and a direction of control. -/
def ranBundle (flags : Nat) (ctl : CtlEffect) : OpenBundle :=
  { bundle 0 0 with todo := [], flags := BitVec.ofNat 8 flags, ctl := ctl }

/-- That bundle open in context 0 of core 3, inside the loops `l`. -/
def retiring (b : OpenBundle) (l : List LoopLvl) : SeqCtx :=
  (bound.modCtx 3 0 fun c => { c with cur := some b, loops := l, state := .issuing }).ctx 3 0

theorem wit_Bundles :
    (let s := bound.modCtx 3 0 fun c => { c with word := 2 }
     let c := s.ctx 3 0
     c.cur = none ∧ c.reload = false ∧ s.mayIssue 3 0 = true ∧ s.gate 3 0 = .go ∧ s.bundleSlots c c.word = []) ∧
    (∀ j, j < 8 → Waits j 0 0) ∧
    (∀ f ∈ [0, 4], ∀ ctl ∈ [CtlEffect.seq, .jump 1, .jump 16384, .enter 0 1 2, .enter 7 1 2, .leave],
      (retiring (ranBundle f ctl) [level]).cur = some (ranBundle f ctl) ∧ (ranBundle f ctl).todo = [] ∧
        (retiring (ranBundle f ctl) [level]).lib = none ∧ (retiring (ranBundle f ctl) [level]).state ≠ .halted ∧
        (ranBundle f ctl).flags.getLsbD 2 = decide (f = 4) ∧ (ranBundle f ctl).ctl = ctl) ∧
    { retiring (ranBundle 0 .seq) [] with state := .halted }.state = .halted ∧
    (level.last = (ranBundle 0 .seq).word ∧ level.index + 1 < level.count ∧
      { level with index := 1 }.count ≤ { level with index := 1 }.index + 1 ∧ { level with last := 9 }.last ≠ (ranBundle 0 .seq).word) ∧
    (let c := retiring (ranBundle 0 (.jump 1)) []
     c.fetched ≤ 1 ∧ 1 < c.fetched + 16384 ∧ c.fetched + 16384 ≤ 16384 ∧ level.last ≠ 2) := by
  refine ⟨?_, ?_, ?_⟩ <;> (try unfold Waits SlotWaits) <;> decide +kernel

/-- The stream's first bundle has a reserved bit of its header set. -/
def malformed : State := bound.writeMem .host 0 (leBytes 4 0x10001)

theorem wit_MalformedBundle :
    (let c := malformed.ctx 3 0
     c.cur = none ∧ c.reload = false ∧ c.queue = some 3 ∧ malformed.mayIssue 3 0 = true ∧ malformed.qState 3 ≠ 7 ∧
       malformed.fld (Reg.qmQRuncnt 3) Fld.qmQRuncntN = 0 ∧ malformed.genWaits 3 0 c c.word = false ∧
       malformed.decodeFaults 3 0 c c.word ≠ []) ∧
    bit (malformed.reg (Reg.seqFault 3 0)) 0 = false ∧ bit ((malformed.setReg (Reg.seqFault 3 0) 1).reg (Reg.seqFault 3 0)) 0 = true := by
  decide +kernel

theorem wit_StreamMarks :
    (let s := bound.modCtx 3 0 fun c => { c with notifies := [(5, 1)] }
     (s.ctx 3 0).notifies = (5, 1) :: [] ∧ s.bundleDone 3 0 5 = true) ∧
    (let s := bound.setFld (Reg.qmQRuncnt 3) Fld.qmQRuncntN 9
     let c := s.ctx 3 0
     (s.queue 3).bound = some (3, 0) ∧ c.queue = some 3 ∧ s.fld (Reg.qmQRuncnt 3) Fld.qmQRuncntN = c.off ∧ c.off ≠ 0 ∧
       c.reload = false ∧ c.state ≠ .halted ∧ c.ended = false ∧ s.quiet 3 0 = true) ∧
    (let s := bound
     let c := s.ctx 3 0
     c.queue = some 3 ∧ c.cur = none ∧ s.mayIssue 3 0 = true ∧ c.word < c.words ∧
       hdrSync (s.streamWord c c.word) = true ∧ c.syncDone = false ∧ s.decodeFaults 3 0 c c.word = [] ∧ c.resume ≠ 0 ∧
       s.recordBytes 3 0 ≤ c.resumeKib * 1024 ∧ s.quiet 3 0 = true ∧ s.otherReady 3 = false ∧ s.testWaits 3 = false) := by decide +kernel

theorem wit_SyncOperationsIssue :
    (∀ op ∈ [1, 2, 3, 4, 5], Waits 7 op 0) ∧
    (let w := slot 3 (2 ^ 14)
     let s := waiting up 207 1 7 w
     Waits 7 3 (2 ^ 14) ∧ s.applied 207 1 5 = false ∧ s.sem 0 0 < bits w 14 16) ∧
    (let s := (waiting up 207 1 7 (slot 3 (2 ^ 14))).setSem 0 0 1
     s.applied 207 1 5 = false ∧ 1 ≤ s.sem 0 0) ∧
    ((waiting up 207 1 7 (slot 3 0)).modQueue 3 fun k => { k with sigHigh := some 5 }).applied 207 1 5 = true ∧
    (up.fld (Reg.cueCtl 0) Fld.cueCtlAct = 0 ∧ up.flag (Reg.cueCtl 0) Fld.cueCtlFired = false) ∧
    (let s := up.setFld (Reg.cueCtl 0) Fld.cueCtlFired 1
     s.reg (Reg.cuePeriod 0) = 0 ∧ s.flag (Reg.cueCtl 0) Fld.cueCtlFired = true ∧ s.fld (Reg.cueCtl 0) Fld.cueCtlAct = 0) := by
  refine ⟨?_, ?_, ?_⟩ <;> (try unfold Waits SlotWaits) <;> decide +kernel

theorem wit_SyncOperationsComplete :
    (let s := bound.modCtx 3 0 fun c => { c with sigs := [{ sem := 63, n := 65535, off := 8, word := 0, tag := 0 }] }
     s.signalReady 3 0 8 = true ∧ s.applied 3 0 8 = false ∧ s.sem 0 63 + 65535 < 2 ^ 32 ∧
       (s.modQueue 3 fun k => { k with sigHigh := some 8 }).applied 3 0 8 = true ∧
       2 ^ 32 ≤ (s.setSem 0 63 (2 ^ 32 - 65535)).sem 0 63 + 65535) ∧
    (let v : SemWait := { sem := 0, n := 1, deadline := some 900, pd := 7, off := 5, tag := 0, began := 800 }
     let s := bound.modCtx 3 0 fun c => { c with wait := some v }
     (s.ctx 3 0).wait = some v ∧ v.deadline = some 900 ∧ max 900 v.began < s.now) ∧ Waits 7 6 0 := by
  refine ⟨?_, ?_, ?_⟩ <;> (try unfold Waits SlotWaits) <;> decide +kernel

/-! Witnesses: registers. -/

theorem wit_RegisterWrites :
    (let off := Reg.carPeerNs 8
     ∃ r ∈ regMap, up.hostOk 0 = true ∧ up.started = true ∧ off % r.bytes = 0 ∧ up.barKey 0 off = some off ∧
       findReg off = some r ∧ up.writeShut off r = false ∧ r.base ∉ ownSteps ∧
       (r.base < Reg.cueFireAt 0 ∨ Reg.cueArg 0 < r.base)) ∧
    (let off := Reg.farOutst 3
     ∃ r ∈ regMap, off % r.bytes = 0 ∧ up.barKey 0 off = some off ∧ findReg off = some r ∧
       up.windowShut off = false ∧ up.absent off = false) := by
  refine ⟨⟨(findReg (Reg.carPeerNs 8)).get (by decide +kernel), ?_⟩, ⟨(findReg (Reg.farOutst 3)).get (by decide +kernel), ?_⟩⟩ <;>
    decide +kernel

theorem wit_Accesses : up.hostOk 8 = true ∧ up.hostOk 0 = true ∧ barAligned 6 4 = false ∧ barAligned 4 4 = true ∧
    barAligned 0x2000 8 = true ∧ up.reached 0 0x2000 8 = [] ∧ up.reached 8 0x8600 8 = [] := by decide +kernel

/-- A PN96-B whose core 0 is fused off. -/
def gradeB : State := { up with fuse := { up.fuse with grade := 2, enabled := 0, spares := 0 } }

theorem wit_AbsentResources : gradeB.hostOk 0 = true ∧ barAligned 0x1CFFFF8 8 = true ∧ gradeB.coreState 207 = 0 ∧
    gradeB.fuse.grade ≠ 1 ∧ 0x60501C / 8 * 8 = Reg.mdVidPixels 1 1 ∧ gradeB.farBonded 3 = false ∧
    0xA80000 + 3 * 0x100 ≤ 0xA803FC := by decide +kernel

theorem wit_CapNeverChanges : Steps up up.tick ∧ (findReg (Reg.capCoreEn 6)).isSome = true ∧
    (findReg (Reg.capCoreSp 6)).isSome = true ∧ (findReg (Reg.netCore 207)).isSome = true := by
  exact ⟨rfl, by decide +kernel⟩

theorem wit_RecordsAndSettings :
    (up.hostOk 0 = true ∧ up.started = true ∧ up.windowShut (0x1000000 + 207 * 0x10000) = false) ∧
    ((up.core 207).fwd = [] ∧ (up.core 207).bwd = []) ∧
    (let s := up.modCtx 207 0 fun c => { c with queue := some 0, kind := 2 }
     (s.ctx 207 0).queue.isSome = true ∧ (s.ctx 207 0).kind = 2) ∧
    ((up.ctx 207 1).queue = none ∧ (up.core 207).sideHolder = none) := by decide +kernel

/-! Witnesses: the matrix engines. -/

/-- A product descriptor of one row and one column of plain OX8 operands at stage address 0. -/
def prodBytes : Bytes := leBytes 8 0 ++ leBytes 8 (0x20 * 2 ^ 50) ++ leBytes 8 0 ++ leBytes 8 (0x20 * 2 ^ 50) ++ List.replicate 32 0

/-- The slot word of a product on array 0. -/
def prodWord : Nat := slot 1 (2 ^ 49)

/-- The product of that descriptor in a phase. -/
def product (ph : PPhase) : Product := { parseProduct 0 0 0 5 0 prodWord prodBytes none with phase := ph }

/-- Core 3 with that product in its forward engine. -/
def engaged (ph : PPhase) : State := up.modCore 3 fun k => { k with fwd := [product ph] }

/-- The same product with a FORWARD generator block of one dimension at stage address 64, which s1 names. -/
def genProdWord : Nat := prodWord + 2 ^ 44 + 2 ^ 26

/-- A bundle that holds it. -/
def genProdBundle : OpenBundle := { bundle 3 genProdWord with sregs := [(1, 64)] }

/-- Core 3 with a slot of the forward engine waiting and the two descriptors in its stage buffer. -/
def producing (b : OpenBundle) : State :=
  (up.modCtx 3 0 fun c => { c with cur := some b, queue := some 3, words := 64 }).writeMem (.stage 3) 0
    (prodBytes ++ List.replicate 24 0 ++ leBytes 8 (2 ^ 37))

theorem wit_Products :
    (let b := bundle 3 prodWord
     let s := producing b
     let raw := s.readMem (.stage 3) 0 64
     SlotWaits s 3 0 3 1 b (BitVec.ofNat 64 prodWord) [] ∧ State.productReady 3 0 s b prodWord = true ∧
       b.sreg (bits prodWord 31 5) = 0 ∧ 64 ≤ (s.stageRegion 3 0).2 ∧ bit prodWord 44 = false ∧
       s.productFaults 3 0 0 prodWord raw (parseProduct (s.core 3).nextXfer 0 (s.ctx 3 0).act b.off b.tag prodWord raw none) = []) ∧
    (let b := genProdBundle
     let s := producing b
     let raw := s.readMem (.stage 3) 0 64
     let graw := s.readMem (.stage 3) 64 32
     SlotWaits s 3 0 3 1 b (BitVec.ofNat 64 genProdWord) [] ∧ State.productReady 3 0 s b genProdWord = true ∧
       b.sreg (bits genProdWord 26 5) = 64 ∧ 64 + 32 ≤ (s.stageRegion 3 0).2 ∧ bit genProdWord 44 = true ∧
       genReserved graw = false ∧ (genBlock graw (bit genProdWord 43)).ok true = true ∧
       s.productFaults 3 0 0 genProdWord raw (parseProduct (s.core 3).nextXfer 0 (s.ctx 3 0).act b.off b.tag genProdWord raw
         (some (genBlock graw (bit genProdWord 43)))) = []) ∧
    (∀ ph ∈ [PPhase.queued, .loading], (let s := engaged ph
     (s.core 3).active 0 = some (product ph) ∧ (product ph).ctx < 2 ∧
       s.portReady 3 0 (product ph) true ((product ph).needed true) = true)) ∧
    ((engaged .draining).core 3).engine 0 = product .draining :: [] := by
  refine ⟨?_, ?_, ?_, ?_⟩ <;> (try unfold SlotWaits) <;> decide +kernel

theorem wit_ActivationRow :
    let s := engaged .streaming
    let p := product .streaming
    let ts := (s.rowTargets 3 p p.row).map (·.1)
    (s.core 3).active 0 = some p ∧ p.phase = .streaming ∧ p.ctx < 2 ∧ Sparse.wf 0 (s.core 3).acc = true ∧
      Sparse.wf false (s.core 3).accPoison = true ∧ s.portReady 3 0 p false (p.lineNeeded false (p.row0 + p.row)) = true ∧
      s.accBusy 3 p.idx ts = false ∧ s.accHeld 3 p.idx ts = false ∧ s.injects 3 0 p = false ∧
      ts ≠ [] ∧ s.coreState 3 ≠ 0 ∧ s.coreState 3 ≠ 4 ∧ bit (s.reg (Reg.mxFault 3)) 0 = false := by decide +kernel

/-- A descriptor whose activations are packed OX8 from stage address 0. -/
def packedBytes : Bytes := leBytes 8 (2 ^ 44) ++ leBytes 8 (0x20 * 2 ^ 50 + 2 ^ 58) ++ prodBytes.drop 16

/-- A RAW block of one OX8 element. -/
def rawBlock : Bytes :=
  blockBytes { mode := 0, poison := false, bumped := false, kind := 0, fmt := 0x20, slot := 0, gen := 0, elements := 1, packed := 1,
               scale := 0, bumps := 0, tag := 0, first := 0, aux := 0, coord := 0, hop := 0, last := false, step := 0, crc := 0 }
    [0x38]

/-- A streaming product whose activations are that descriptor's, and the block at the place it reads. -/
def expanding (block : Bytes) : State :=
  (up.modCore 3 fun k => { k with
    fwd := [{ parseProduct 0 0 0 5 0 prodWord packedBytes none with phase := .streaming }] }).writeMem (.stage 3) 0 block

theorem wit_Expanders :
    (let s := expanding rawBlock
     let p := { parseProduct 0 0 0 5 0 prodWord packedBytes none with phase := .streaming }
     let q := (s.core 3).xp 0
     let u := s.landBlock 3 p.idx 0
     let hdr := u.readMem (.stage 3) 0 32
     let h := parseHdr hdr
     (s.core 3).active 0 = some p ∧ p.ctx < 2 ∧ p.aview.packed = true ∧ p.aview.elem = 0 ∧ q.fetching = none ∧
       q.first + q.elems.length < p.needed false ∧ q.pos = 0 ∧ hdrFits hdr = true ∧ 32 + h.packed ≤ (s.stageRegion 3 0).2 ∧
       u.stageReadWaits 3 p.idx [(0, 32 + h.packed)] = false ∧ h.mode ≠ 1 ∧
       (u.blockResult 3 0 p.aview.fmt ((u.tableImage h.slot h.gen).getD [])).1 = none) ∧
    (let s := expanding (rawBlock.map fun b => b + 1)
     let u := s.landBlock 3 (parseProduct 0 0 0 5 0 prodWord packedBytes none).idx 0
     let hdr := u.readMem (.stage 3) 0 32
     hdrFits hdr = false ∧ u.stageReadWaits 3 0 [(0, 32 + (parseHdr hdr).packed)] = false ∧
       (u.blockResult 3 0 0x20 ((u.tableImage (parseHdr hdr).slot (parseHdr hdr).gen).getD [])).1 ≠ none ∧
       bit (s.reg (Reg.mxXpfault 3)) 0 = false) ∧
    (let s := { up with ts := [(31, { cur := some { gen := 7, image := [1] }, prev := none, by_ := none })] }.modCore 3 fun k =>
       k.modXp 3 fun y => { y with fetching := some (31, 7) }
     ((s.core 3).xp 3).fetching = some (31, 7) ∧ s.tableImage 31 7 = some [1]) := by decide +kernel

/-! Witnesses: transfers and memory. -/

/-- A COPY descriptor of one row of one byte between address 0 of near memory and stage address 64. -/
def copyDesc : Bytes := leBytes 8 0 ++ leBytes 8 64 ++ List.replicate 16 0

theorem wit_Transfers :
    (∀ j ∈ [1, 2], (let w := slot 1 0
      let s := (waiting up 3 0 j w).writeMem (.stage 3) 0 copyDesc
      let b := bundle j w
      let c := s.ctx 3 0
      SlotWaits s 3 0 j 1 b (BitVec.ofNat 64 w) [] ∧ s.descReady 3 0 b w = true ∧ descAddr b w = 0 ∧
        32 ≤ (s.stageRegion 3 0).2 ∧
        (let u := s.newXfer 3 0 b w (if j = 1 then .din else .dout) 0
         s.copyFaults c.act c.windowed (s.stageRegion 3 0).2 u.space (decide (j = 1)) u.desc = []))) ∧
    (let w := slot 2 (2 ^ 17 * 0x60)
     let s := (waiting up 3 0 2 w).writeMem (.stage 3) 0 (leBytes 8 64 ++ List.replicate 24 0)
     let b := bundle 2 w
     let c := s.ctx 3 0
     SlotWaits s 3 0 2 2 b (BitVec.ofNat 64 w) [] ∧ s.descReady 3 0 b w = true ∧ descAddr b w = 0 ∧
       (let u := s.newXfer 3 0 b w .drain 0
        drainFaults u.desc w (s.accRegion 3 0).2 (s.rangeOk c.act c.windowed (s.stageRegion 3 0).2 u.space true)
          (s.rangeOk c.act c.windowed (s.stageRegion 3 0).2 0 true) = [])) ∧
    (let w := slot 1 (7 * 2 ^ 50)
     let s := ((waiting up 3 0 1 w).setReg (Reg.farCap 3) 1).writeMem (.stage 3) 0 copyDesc
     let b := bundle 1 w
     let c := s.ctx 3 0
     let u := s.newXfer 3 0 b w .din 0
     SlotWaits s 3 0 1 1 b (BitVec.ofNat 64 w) [] ∧ s.descReady 3 0 b w = true ∧ u.space = 7 ∧
       s.copyFaults c.act c.windowed (s.stageRegion 3 0).2 u.space true u.desc = []) := by
  refine ⟨?_, ?_, ?_⟩ <;> unfold SlotWaits <;> decide +kernel

/-- A transfer of a kind to or from a space with that descriptor. -/
def moving (kind : XKind) (space : Nat) : Xfer :=
  (((waiting up 3 0 1 (slot 1 0)).writeMem (.stage 3) 0 copyDesc).newXfer 3 0 (bundle 1 (slot 1 (space * 2 ^ 50)))
    (slot 1 (space * 2 ^ 50)) kind 0)

theorem wit_CopyMovesItsRows :
    (let u := moving .din 0
     let s := up.modCore 3 fun k => { k with xfers := [u] }
     s.memWf = true ∧ (s.ctxXfers 3 0).find? (fun t => t.idx = u.idx) = some u ∧ u.kind ≠ .drain ∧ u.space < 3 ∧ u.chain = 0 ∧
       s.xferReady 3 u = true) ∧
    (let u := { moving .drain 0 with converted := true }
     let s := up.modCore 3 fun k => { k with xfers := [u] }
     (s.ctxXfers 3 0).find? (fun t => t.idx = u.idx) = some u ∧ u.kind = .drain ∧ u.converted = true ∧ s.farSettled 3 u = true) ∧
    (let u := { moving .dout 3 with sent := true }
     let s := up.modCore 3 fun k => { k with xfers := [u] }
     (s.ctxXfers 3 0).find? (fun t => t.idx = u.idx) = some u ∧ u.kind = .dout ∧ u.space = 3 ∧ s.xferReady 3 u = true ∧
       u.sent = true ∧ s.copyPending u.queue u.off = false) := by decide +kernel

theorem wit_DrainsAndReceives :
    (let u := { moving .drain 0 with slot := BitVec.ofNat 64 (slot 2 (2 ^ 17 * 0x60)) }
     let s := up.modCore 3 fun k => { k with xfers := [u] }
     let d := u.desc
     s.memWf = true ∧ s.nextDrain 3 0 = some u ∧ s.accBusy 3 u.idx [u.abase + bits u.slot.toNat 26 19] = false ∧
       d.tileRows * d.tileCols = 1 ∧ s.stageWriteWaits 3 u.idx (s.xferStageWrites 3 u) = false ∧
       s.extWaits 3 u = false ∧ u.space < 3 ∧ bit u.slot.toNat 8 = false ∧ bit u.slot.toNat 9 = false ∧
       fmtG (drainFmt u.slot.toNat) = 0 ∧ 8 ≤ fmtBits (drainFmt u.slot.toNat) ∧ d.col0 + d.tileCols ≤ d.len ∧
       s.statEntry u.act (bits u.sc.toNat 32 12) = none ∧ ((s.tileRows 3 u).1.all fun r => r.all F32.isFin) = true) ∧
    (let u := moving .din 3
     let s := (((up.setReg (Reg.qmQCfg 0) 4).setReg (Reg.qmQState 0) 2).setReg (Reg.qmQPtr 0) (2 ^ 32)).modCore 3 fun k =>
       { k with xfers := [u] }
     (s.ctxXfers 3 0).find? (fun t => t.idx = u.idx && t.kind = .din && t.space = 3) = some u ∧ s.msgReady u.queue = true ∧
       s.xferReady 3 u = true ∧
       (∀ y ∈ (s.core 3).xfers, y.kind = .din → y.space = 3 → y.queue = u.queue → u.idx ≤ y.idx)) := by decide +kernel

/-- A module whose stacks have trained. -/
def trained : State := up.setFld Reg.memStackOk Fld.memStackOkMap (2 ^ 32 - 1)

theorem wit_MemoryRequests :
    (trained.nearAbsent 3072 1024 = false ∧ trained.stackUp (trained.stackOf 3072) = true ∧ trained.stackOf 3072 = 0 ∧
      3072 / 4096 = (3072 + 1024 - 1) / 4096 ∧ 3072 + 1024 ≤ nearSize ∧
      trained.fld (Reg.memStk1 0) Fld.memStk1Outstanding < 512 ∧ 3072 / 64 ≤ 63 ∧ 63 ≤ (3072 + 1024 - 1) / 64) ∧
    (countSum (lastSecond trained.now (Sparse.get [] trained.dieErrs 19)) + 1 < 4096 ∧
      trained.fld (Reg.memStk0 0) Fld.memStk0CeCount + 1 < 2 ^ Fld.memStk0CeCount.w ∧
      trained.correctable 0 (([0, 1, 19].filter (· < 20)).eraseDups) = false ∧
      countSum (lastSecond trained.now (Sparse.get [] trained.stackReads 0)) + 1 < 256 ∧
      ∀ y, y < 9 → ∀ q ∈ trained.defaultEvq y, trained.qSpace q = .host) ∧
    (let s := { trained.setFld Reg.memCtl Fld.memCtlScrubHours 1 with now := 3600000000000 }
     s.fld Reg.memCtl Fld.memCtlScrubHours ≠ 0 ∧ s.stackUp 31 = true ∧
       Sparse.get 0 s.scrubbed 31 + s.fld Reg.memCtl Fld.memCtlScrubHours * 3600000000000 ≤ s.now) ∧
    (∀ d ∈ [999, 1000], (let r : FarReq := { addr := 0, write := true, owner := .xfer 0 0, deadline := d }
      let s := { up with farReqs := [(3, [r])] }
      (Sparse.get [] s.farReqs 3)[0]? = some r ∧ (r.deadline < s.now ∨ s.now ≤ r.deadline))) ∧
    (up.coreState 23 ≠ 0 ∧ up.coreState 23 ≠ 4) := by decide +kernel

/-! Witnesses: the Show Clock, cues and acts. -/

/-- A module in start-up that has not learned the time of day, under time source `src`. -/
def timeless (src : Nat) : State := (up.setFld Reg.topState Fld.topStatePhase 5).setFld Reg.sckCtl Fld.sckCtlSource src

/-- That module with its clock's records changed. -/
def clocked (src : Nat) (f : Clock → Clock) : State := { timeless src with clock := f (timeless src).clock }

theorem wit_ClockReferences :
    ((timeless 1).alive = true ∧ (timeless 1).timeSource = 1 ∧ (timeless 1).clock.todArmed = []) ∧
    (let s := clocked 1 fun c => { c with todArmed := [(1700000000, 0), (1800000000, 1)] }
     s.timeSource = 1 ∧ (s.clock.todArmed.filter fun w => decide (w.2 + 1000 ≤ s.now)).getLast? = some (1700000000, 0) ∧
       s.mayStep = true ∧ (s.setFld Reg.sckStatus Fld.sckStatusTimeSet 1).mayStep = false) ∧
    ((up.setFld Reg.sckCtl Fld.sckCtlSource 2).timeSource = 2 ∧ up.now ≤ 0 + 1000000000 ∧
      (up.setFld Reg.sckCtl Fld.sckCtlSource 2).mayStep = false) ∧
    ((timeless 2).timeSource = 2 ∧ (timeless 2).now ≤ 0 + 1000000000 ∧ (timeless 2).mayStep = true ∧
      0 + 1000000000 < ({ timeless 2 with now := 1000000001 } : State).now) ∧
    ((timeless 1).referenceGone = true ∧ (timeless 1).flag Reg.sckStatus Fld.sckStatusHoldover = false) ∧
    (let c := (clocked 1 fun c => { c with slew := -100, slewFrom := 0 }).clock
     c.slewFrom + 10 * c.slew.natAbs = 1000 ∧ (timeless 1).now = 1000) := by decide +kernel

theorem wit_CueWrites :
    (up.hostOk 0 = true ∧ up.started = true ∧ up.cueAct 511 = 0 ∧ up.hostOk 8 = true ∧ up.cueAct 511 ≠ 8) ∧
    (bits 4 0 3 ≤ 4 ∧ 4 < bits 5 0 3) ∧
    (let s := ((up.setReg (Reg.qmQCfg 0) 5).setReg (Reg.qmQState 0) 2).setReg (Reg.qmQPtr 0) (2 ^ 32)
     s.alive = true ∧ s.qCreated 0 = true ∧ s.qType 0 = 5 ∧ s.qRunning 0 = true ∧ (s.queue 0).control = none ∧
       0 < s.qUsed 0 ∧ s.cueAct (fieldAt (s.readEntry 0 (s.qCons 0)) 0 2 % 512) = s.qAct 0 ∧
       (let t := s.setFld (Reg.cueCtl 0) Fld.cueCtlAct 3
        t.cueAct (fieldAt (t.readEntry 0 (t.qCons 0)) 0 2 % 512) ≠ t.qAct 0)) := by decide +kernel

theorem wit_CueFires :
    let s := (up.setFld (Reg.cueCtl 511) Fld.cueCtlEnable 1).setReg (Reg.cueFireAt 511) 1000
    s.alive = true ∧ s.cueDue 511 = true ∧ s.cueFirst 511 = true ∧ (s.cueInForce 511).wrote = [] ∧
      (s.cueInForce 511).action = 0 ∧ (s.cueInForce 511).period = 0 := by decide +kernel

/-- Act 1 enabled as a sideshow, with the first logical core on die 7 and queues 64 to 127; queue 64 runs on core 0 of it and
has one stream to bind. -/
def sideshow : State :=
  let s := ((up.setFld (Reg.sckAct 1) Fld.sckActEnabled 1).setFld (Reg.qmActRange 1 0) Fld.qmActRangeFirstPage 1).setFld
    (Reg.qmActRange 1 0) Fld.qmActRangePages 1
  let s := { s with acts := [{ act := 1, troupe := [7], statsBase := 0 }] }
  let s := (s.setReg (Reg.qmQCfg 64) 1).setReg (Reg.qmQState 64) 2
  s.modQueue 64 fun k => { k with entries := [{ count := 0, stream := 0, words := 2, near := false, resume := 0, resumeKib := 0,
                                                bad := [] }] }

theorem wit_HeadlineAct :
    (up.hostOk 0 = true ∧ up.started = true ∧ bits 0 0 4 < 9 ∧ up.actEnabled 0 = true) ∧
    (let s := up.setFld Reg.sckHeadline Fld.sckHeadlinePending 1
     s.alive = true ∧ s.flag Reg.sckHeadline Fld.sckHeadlinePending = true ∧ s.actBound s.headline = false ∧
       s.actBound (s.fld Reg.sckHeadline Fld.sckHeadlineRequested) = false) ∧
    sideshow.isSideshow 1 = true ∧ sideshow.mayRebind 190 64 = true := by decide +kernel

/-- Core 0 hosts logical core 0 of act 1. -/
def troupeCore : State := up.modCore 0 fun k => { k with logical := [(1, 0)] }

theorem wit_Bubbles :
    (let k := troupeCore.core 0
     troupeCore.alive = true ∧ troupeCore.coreRuns 0 = true ∧ troupeCore.headlineCore 0 = true ∧ k.bubble = false ∧
       troupeCore.ctx0Waits 0 = true ∧ k.fwd = [] ∧ k.bwd = [] ∧ k.vecq = [] ∧ k.rowq = [] ∧ k.sort.running = none) ∧
    (let s := (troupeCore.modCore 0 fun k => { k with bubble := true }).modCtx 0 0 fun c => { c with queue := some 3 }
     (s.core 0).bubble = true ∧ s.ctx0Waits 0 = false ∧ (s.ctx 0 1).queue = none ∧
       ((s.modCtx 0 1 fun c => { c with queue := some 64 }).ctx 0 1).queue ≠ none) ∧
    (let s := { engaged .queued with now := 2000000 }.modCore 3 fun k =>
       { k with bubbleEnded := some 0, fwd := [{ product .queued with ctx := 1 }] }
     (s.core 3).bubbleEnded = some 0 ∧ s.fld Reg.sckSsCtl Fld.sckSsCtlPreemptLimit * 625 ≤ (s.now - 0) * 1000 ∧
       s.ctxProducts 3 1 ≠ [] ∧
       (∀ j ∈ [3, 6], ∃ p ∈ (bundle j 0).todo, 3 ≤ p.1 ∧ p.1 ≤ 6)) ∧
    (((troupeCore.modCore 0 fun k => { k with abandoned := true }).core 0).abandoned = true ∧ troupeCore.ctxXfers 0 1 = []) ∧
    (let r := bound.resumeRec 3 0
     let s := (troupeCore.modCtx 0 1 fun c => { c with queue := some 64 }).modQueue 64 fun k => { k with rec_ := some r }
     (s.ctx 0 1).queue = some 64 ∧ (s.queue 64).rec_ = some r ∧ (s.queue 3).rec_ = none) ∧
    (let s := troupeCore.modCore 0 fun k => { k with scrubbing := some 1, bubble := true }
     (s.core 0).scrubbing = some 1 ∧ (s.core 0).bubble = true ∧ (s.ctx 0 1).queue = none ∧ s.ctxXfers 0 1 = [] ∧
       s.ctxProducts 0 1 = [] ∧ s.ctxOps 0 1 = [] ∧ s.memWf = true ∧
       (∀ p ∈ s.cores, Sparse.wf 0 p.2.acc = true ∧ Sparse.wf false p.2.accPoison = true) ∧ Sparse.rising none s.buckets = true ∧
       Sparse.rising none s.railRuns = true ∧ Sparse.rising none s.railOver = true ∧ s.readyFor 0 1 = []) := by decide +kernel

/-! Witnesses: the host port, queues and streams. -/

/-- Queue 0 of act 0, selected by the physical function, of a type, 64 entries and a state. -/
def queued (typ st : Nat) : State :=
  let s := (up.setFld (Reg.qmActRange 0 0) Fld.qmActRangePages 1).setFld (Reg.qmQsel 0) Fld.qmQselValid 1
  ((s.setReg (Reg.qmQCfg 0) typ).setFld (Reg.qmQCfg 0) Fld.qmQCfgLog2Size 6).setReg (Reg.qmQState 0) st

theorem wit_QueueControls :
    (∀ st, st < 8 → (queued 3 st).selected 0 = some 0 ∧ (queued 3 st).hostOk 0 = true ∧ (queued 3 st).started = true ∧
      (queued 3 st).qBusy 0 = false ∧ (queued 3 st).qState 0 = st) ∧
    ((queued 3 0).createBad 0 = false ∧ (queued 3 0).createDenied 0 = false ∧ (queued 6 0).createBad 0 = true ∧
      (queued 1 0).createDenied 0 = true ∧ ((queued 1 0).setFld (Reg.qmQCfg 0) Fld.qmQCfgCore 24).createBad 0 = false) ∧
    ((queued 3 1).startRefusal 0 = none ∧ (queued 2 1).startRefusal 0 = some 2 ∧ (queued 3 1).phase ≠ 0xF ∧
      ((queued 3 1).setFld Reg.topState Fld.topStatePhase 0xF).phase = 0xF ∧
      ((queued 3 1).setFld Reg.topState Fld.topStatePhase 0xF).hostOk 0 = true) ∧
    ((queued 1 5).qType 0 = 1 ∧ (queued 1 6).qAct 0 = 0 ∧ ((queued 1 6).core ((queued 1 6).qCore 0)).fenceAt = none ∧
      (((queued 1 6).modCore 0 fun k => { k with fenceAt := some 5 }).core ((queued 1 6).qCore 0)).fenceAt.isSome = true) ∧
    ((queued 1 2).queue 0).bound = none ∧ (((queued 1 6).modQueue 0 fun k => { k with bound := some (3, 1) }).queue 0).bound = some (3, 1) := by
  decide +kernel

theorem wit_ControlsEnd :
    (let s := (queued 3 2).modQueue 0 fun k => { k with control := some 2 }
     s.alive = true ∧ (s.queue 0).control = some 2 ∧ s.stopDone 0 = true) ∧
    (let s := (queued 1 7).modQueue 0 fun k => { k with control := some 3 }
     (s.queue 0).control = some 3 ∧ s.resetQuiet 0 = true) ∧
    sideshow.hostOk 1 = true ∧ sideshow.hostOk 8 = true ∧ 64 ∈ sideshow.queuesOf 1 := by decide +kernel

theorem wit_Doorbells :
    (let s := queued 1 2
     s.qCreated 0 = true ∧ s.queueAct 0 = some 0 ∧ s.qState 0 ≠ 7 ∧ s.hostProduces 0 = true ∧ s.qUsed 0 ≤ 64 ∧ 64 ≤ s.qSize 0 ∧
       s.qSize 0 < 65 ∧ (queued 1 7).qState 0 = 7) ∧
    (let s := queued 3 2
     s.hostProduces 0 = false ∧ s.hostConsumes 0 = true ∧ 0 ≤ s.qUsed 0 ∧ s.qUsed 0 < 1 ∧ (s.queue 0).ovf = none) ∧
    up.queueAct 65535 ≠ some 0 ∧
    (trained.apertureForm 0 0x3F 1 = true ∧ trained.apertureOk 0 0x3F 1 false = true ∧ trained.marked .near 0x3F 1 = false ∧
      (trained.markMem .near 0x3F 1).marked .near 0x3F 1 = true ∧ trained.apertureForm 0 0x3F 2 = false ∧
      trained.apertureOk 8 0x3F 1 false = false ∧ trained.apertureForm 8 0x3F 1 = true ∧ trained.memWf = true ∧
      trained.apertureOk 0 0x3F 1 true = true) := by decide +kernel

theorem wit_InterruptVectors :
    (up.hostOk 8 = true ∧ 15 < 16 ∧ up.hostOk 0 = true) ∧
    (let s := ((queued 3 2).setFld (Reg.evtMod 0) Fld.evtModTimeNs 100).modQueue 0 fun k =>
       { k with evDeadline := some 900, evStamps := [800] }
     (s.queue 0).evDeadline = some 900 ∧ 900 < s.now ∧ s.qCreated 0 = true ∧ s.qType 0 = 3 ∧
       s.fld (Reg.evtMod 0) Fld.evtModTimeNs ≠ 0 ∧ (s.queue 0).evStamps ≠ [] ∧
       s.msixMasked ((s.queueAct 0).getD 0) (s.fld (Reg.evtMod 0) Fld.evtModVector) = true) ∧
    ((queued 3 2).evtSelected 0).isSome = true ∧ up.evtSelected 0 = none ∧ (queued 1 2).evtSelected 0 = none := by decide +kernel

/-- A message of zeros that DOUTs of queue 0 sent. -/
def message (off len : Nat) : CopyMsg :=
  { srcQueue := 0, srcCoord := 0, srcOffset := off, msgSeq := 0, length := len, data := List.replicate len 0, marks := [],
    oversize := false }

/-- Device-to-host queue 0, running, with a data area of 1 KiB and a message that arrives. -/
def arriving (m : CopyMsg) : State :=
  let s := ((queued 4 2).setFld (Reg.qmQPeer 0) Fld.qmQPeerKind 1).setFld (Reg.qmQDataSize 0) Fld.qmQDataSizeKib 1
  (s.setReg (Reg.qmQData 0) (2 ^ 20)).modQueue 0 fun k => { k with arriving := [m] }

theorem wit_Entries :
    (let s := (queued 1 2).setReg (Reg.qmQPtr 0) (2 ^ 32)
     s.alive = true ∧ s.qCreated 0 = true ∧ s.qType 0 = 1 ∧ s.qRunning 0 = true ∧ (s.queue 0).control = none ∧
       (s.queue 0).entries.length < s.qUsed 0 ∧ (s.queue 0).entries.length < 4 + b2n (s.queue 0).begun) ∧
    (let e : CmdEntry := { count := 0, stream := 0, words := 2, near := false, resume := 0, resumeKib := 0, bad := [] }
     let s := (queued 1 2).modQueue 0 fun k => { k with entries := [e] }
     s.streamReady 0 = true ∧ s.bindTarget 0 = some (0, 0) ∧ (s.ctx 0 0).queue = none ∧ (s.core 0).recover = [] ∧
       nextTurn ((s.core 0).rr 0) (s.readyFor 0 0) = some 0 ∧ s.qContext 0 ≠ 2 ∧
       ((queued 1 2).modQueue 0 fun k => { k with entries := [{ e with bad := [2, 3] }] }).streamReady 0 = true) ∧
    (let s := bound.modCtx 3 0 fun c => { c with ended := true }
     (s.ctx 3 0).queue = some 3 ∧ (s.ctx 3 0).ended = true ∧ (s.ctx 3 0).state ≠ .halted ∧ s.quiet 3 0 = true ∧
       (s.ctx 3 0).notifies = [] ∧ s.qState 3 ≠ 7) ∧
    ((bound.modCtx 3 0 fun c => { c with state := .waitFetch }).ctx 3 0).state = .waitFetch ∧
    (∀ m ∈ [message 5 0, message 5 1024, message 5 1025], let s := arriving m
      (s.queue 0).arriving = m :: [] ∧ s.isCopy 0 = true ∧ s.qTaking 0 = true ∧ s.namesSender 0 m = true ∧ s.inOrder 0 m = true) ∧
    (∀ m ∈ [message 5 0, message 5 1024], let s := arriving m
      s.copyDuplicate 0 m = false ∧ roundUp m.length 64 ≤ s.dataSize 0 ∧ s.copyRoom 0 m.length = true ∧
        s.reg (Reg.qmQShadow 0) = 0 ∧ s.memWf = true ∧
        rangesHit (s.reg (Reg.qmQData 0) + s.dataPlace 0 m.length, m.data.length) (s.qSlot 0 (s.qProd 0), 48) = false) ∧
    (let m := message 5 1025
     let s := arriving m
     s.copyDuplicate 0 m = false ∧ s.dataSize 0 < roundUp m.length 64 ∧ s.qUsed 0 < s.qSize 0 ∧
       (s.modQueue 0 fun k => { k with lastSrc := some 5 }).copyDuplicate 0 m = true) := by decide +kernel

/-! Witnesses: the input pipeline and the Carousel. -/

/-- Sample queue 0, running, with a window of 4 samples and one entry not yet fetched. -/
def sampling : State :=
  (((queued 2 2).setFld (Reg.inWin 0) Fld.inWinWindow 4).setReg (Reg.qmQPtr 0) (2 ^ 32)).setReg (Reg.inBudget 0) 100

/-- The entry of a sample of a kind with flags, of 64 positions. -/
def sample (kind flags : Nat) (st : SampleState) : Sample :=
  { newSample 7 (leBytes 8 0 ++ leBytes 4 8 ++ leBytes 1 kind ++ leBytes 1 flags ++ leBytes 2 0 ++ leBytes 4 64 ++
      List.replicate 12 0 ++ leBytes 8 300) with state := st }

/-- That queue with one sample fetched. -/
def fetched (x : Sample) : State := sampling.modQueue 0 fun k => { k with samples := [x] }

theorem wit_SamplesAreFetched :
    (sampling.alive = true ∧ sampling.qCreated 0 = true ∧ sampling.qType 0 = 2 ∧ sampling.qRunning 0 = true ∧
      (sampling.queue 0).control = none ∧ (sampling.queue 0).samples.length < sampling.inWindow 0 ∧
      (sampling.queue 0).loading = false ∧
      (sampling.queue 0).pendCmpl.length + (sampling.queue 0).samples.length < sampling.qUsed 0) ∧
    (let s := fetched (sample 1 0 .fetched)
     (s.queue 0).pendCmpl = [] ∧ ((s.queue 0).samples.head?.map Sample.ready) = some false ∧
       ((s.queue 0).samples.head?.map Sample.count) = some 7 ∧
       (s.fetchReasons 0 (newSample 1 (s.readEntry 0 1))).contains 6 = false) ∧
    (let x := sample 1 0 .fetched
     (fetched x).engineLoad 0 0 5 < (fetched x).engineCap 0 5 ∧ (fetched x).nextSample 0 0 = some (0, x) ∧
       (fetched x).staleDeadline 0 x = none) ∧
    (let x := sample 1 2 .fetched
     let s := (fetched x).setReg (Reg.inStale 0) 100
     s.engineLoad 0 0 0 < s.engineCap 0 0 ∧ s.nextSample 0 0 = some (0, x) ∧ s.staleDeadline 0 x = some 400 ∧
       (400 : Int) < s.now ∧ (s.queue 0).samples.find? (fun y => y.count = 7) = some x ∧ x.admitted = none ∧
       x.reasons.contains 6 = false) ∧
    (let x := sample 1 0 (.dispatched 2 950)
     (fetched x).decoding 0 7 = some (x, 2) ∧ (fetched x).budgetDeadline 0 x = some 1050 ∧ (fetched x).now ≤ 1050) ∧
    (let x := sample 1 0 (.dispatched 2 899)
     (fetched x).decoding 0 7 = some (x, 2) ∧ (fetched x).budgetDeadline 0 x = some 999 ∧ 999 < (fetched x).now) := by
  decide +kernel

/-- A code table of two codewords of one bit each. -/
def twoCodes : Bytes := leBytes 4 0x43540001 ++ leBytes 1 0x20 ++ leBytes 3 0 ++ leBytes 2 0x0101 ++ List.replicate 254 0

theorem wit_TablesAndBatches :
    (let x := { sample 0xE 0 .fetched with raw := leBytes 8 0 ++ leBytes 4 264 ++ leBytes 1 0xE ++ leBytes 1 0 ++ leBytes 1 31 }
     let s := (fetched x).writeMem .host 0 twoCodes
     s.nextLoad 31 = some (0, x) ∧ (s.tsSlot 31).prev = none ∧ s.unreadable x false = false ∧ s.unreadable x true = true ∧
       codeTableOk (s.readMem x.space x.src x.length) = true ∧
       codeTableOk ((fetched x).readMem x.space x.src x.length) = false) ∧
    (let s := sampling.modQueue 0 fun k => { k with closed := [Batch.reset] }
     s.alive = true ∧ s.qCreated 0 = true ∧ s.qType 0 = 2 ∧ (s.queue 0).closed = Batch.reset :: [] ∧
       (s.queue 0).samples = [] ∧ (s.queue 0).pendCmpl = [] ∧ s.cores = [] ∧ s.memWf = true) ∧
    1 ≤ (sampling.setSem 0 0 1).sem (sampling.qAct 0) (sampling.fld (Reg.inSems 0) Fld.inSemsFreeSem) := by decide +kernel

/-- The table entry of a DENSE bucket of groups of 32 without an update, in OX4-32. -/
def tableEntry : Bytes := List.replicate 30 0 ++ leBytes 1 0x14 ++ List.replicate 17 0 ++ leBytes 1 1 ++ List.replicate 15 0

/-- Context 0 of core 3 runs a stream of act 1 and waits for the handover of the bucket of tag 2. -/
def handing (tag : Nat) : State :=
  (up.writeMem .near 128 tableEntry).modCtx 3 0 fun c => { c with act := 1, step := 9, bucketWait := some { acd := 0, tag := tag, off := 0, step := 9 } }

/-- The bucket of tag 2 of act 1, in a state of its passage. -/
def bucketIn (st : BktState) : Bucket := { (handing 2).newBucket 3 0 { acd := 0, tag := 2, off := 0, step := 9 } with state := st, sumAt := some 5 }

/-- A module with one bucket in flight, in slot 127 of Carousel 0, in rings of two devices. -/
def flying (b : Bucket) : State := ((handing 2).setReg Reg.fabExtent 0x1111).setBucket 127 b

theorem wit_Buckets :
    (let w : BucketWait := { acd := 0, tag := 2, off := 0, step := 9 }
     let s := handing 2
     (s.ctx 3 0).bucketWait = some w ∧ Sparse.get? s.handed (tagKey 1 2) = none ∧ s.bucketOf 1 2 = none ∧
       s.handoverConds (s.newBucket 3 0 w) = [] ∧ s.freeSlot (s.newBucket 3 0 w).mw = some 0 ∧
       s.scratchUsed 1 + s.bucketScratch (s.newBucket 3 0 w) ≤ s.fld (Reg.carScratchSize 1) Fld.carScratchSizeMib * 2 ^ 20) ∧
    (handing 3).handoverConds ((handing 3).newBucket 3 0 { acd := 0, tag := 3, off := 0, step := 9 }) ≠ [] ∧
    (let b := bucketIn .held
     let s := (flying b).setFld (Reg.mxAcd1 3 0) Fld.mxAcd1Complete 1
     Sparse.get? s.buckets (slotKey 0 127) = some b ∧ b.act < 9 ∧ b.state = .held ∧ b.started = false ∧
       s.flag (Reg.mxAcd1 b.core b.acd) Fld.mxAcd1Complete = true) ∧
    (let b := { bucketIn .held with started := true }
     Sparse.get? (flying b).buckets (slotKey 0 127) = some b ∧ b.axis < 4 ∧ 1 < (flying b).ringLen b ∧ b.hop = 0 ∧
       b.progressAt = none) ∧
    (let w : BucketWait := { acd := 0, tag := 2, off := 0, step := 9 }
     let new := (handing 2).newBucket 3 0 w
     let s := { handing 2 with handed := [(tagKey 1 2, 9)] }
     Sparse.get? s.handed (tagKey new.act new.tag) = some new.step ∧ s.bucketOf 1 2 = none ∧ (s.ctx 3 0).bucketWait = some w ∧
       ((flying (bucketIn .held)).bucketOf 1 2).isSome = true) ∧
    (let b := bucketIn .reduce
     Sparse.get? (flying b).buckets 127 = some b ∧ b.hop + 1 < (flying b).ringLen b ∧ b.hop = 0 ∧ b.mode = 0) ∧
    (let b := bucketIn .vote
     (flying b).mayTake 1 b = true ∧ (∀ p ∈ (flying b).buckets, (flying b).takeKey b ≤ (flying b).takeKey p.2) ∧
       Sparse.get? b.halves 1 = none ∧ b.msp 1 = 0 ∧ (flying b).farReqs = [] ∧ (flying b).farAsks = []) ∧
    (let v : Vote := { owner := 0, poison := false, index := 0, coord := 0 }
     let h : Half := { base := 0, master := [], codes1 := [], scales1 := [], codes2 := [], scales2 := [] }
     let b := { bucketIn .update with taken := [0, 1], halves := [(0, h), (1, h)], votes := [v, { v with owner := 1 }] }
     let s := flying b
     Sparse.get? s.buckets 127 = some b ∧ b.state = .update ∧ b.taken.length = 2 ∧ b.halves.length = 2 ∧
       s.votesMissing b = false ∧ s.waitsSlice b = false ∧ Sparse.rising none s.buckets = true) ∧
    (∀ r ∈ [(900, true), (901, false)], let b := { bucketIn .reduce with progressAt := some r.1 }
     let s := (flying b).setReg (Reg.carPeerNs 1) 99
     Sparse.get? s.buckets 127 = some b ∧ s.peerDue b = some (r.1 + 99) ∧ (r.1 + 99 < s.now ↔ r.2 = true)) := by decide +kernel

/-! Witnesses: the fabric. -/

/-- Port 7 in a state, entered at tick 0, at tick `now`, in a fabric of two modules in each dimension. -/
def ported (st now : Nat) : State :=
  { ((up.setReg Reg.fabExtent 0x1111).setFld (Reg.lnkStatus 7) Fld.lnkStatusState st).setFld (Reg.lnkCtl 7)
      Fld.lnkCtlCtlRate 10 with now := now }

/-- Keys of no bytes. -/
def noKeys : LinkKeys := { txKey := [], txSalt := [], rxKey := [], rxSalt := [] }

theorem wit_PortConditions :
    (let k := (ported 4 5).port 7
     k.left ≠ some (ported 4 5).now ∧ k.rekeyDue = false ∧ (∀ st ∈ [0, 1], stateRank st < 2) ∧ ∀ st ∈ [5, 6, 7], 2 ≤ stateRank st) ∧
    (let s := (ported 5 5).modPort 7 fun k => { k with left := some 5, creditAt := [(7, 4)] }
     s.portState 7 = 5 ∧ (s.port 7).left = some s.now ∧ (recent s.now 1000000000 (s.port 7).retrains).length < 2 ∧
       Sparse.get? (s.port 7).creditAt (laneKey 3 (b2n true)) = some 4) ∧
    (let s := ((ported 5 100000000).fillCredits 7).modPort 7 fun k => { k with degrades := [0, 0, 0] }
     s.portState 7 = 5 ∧ s.creditsFull 7 = true ∧ (s.port 7).since + 100000000 ≤ s.now ∧
       3 ≤ (recent (s.port 7).since 60000000000 (s.port 7).degrades).length) ∧
    (ported 0 5).flag (Reg.lnkCtl 7) Fld.lnkCtlDisable = false := by decide +kernel

theorem wit_PortStates :
    (∀ st, st < 8 → (ported st 0).portState 7 = st) ∧
    ((ported 1 500000000).now ≤ ((ported 1 500000000).port 7).since + 500000000 ∧
      ((ported 1 500000001).port 7).since + 500000000 < (ported 1 500000001).now) ∧
    ((ported 2 2000000001).port 7).since + 2000000000 < (ported 2 2000000001).now ∧
    (let s := (ported 4 0).modPort 7 fun k => { k with keys := some noKeys, txCount := 2 ^ 40 }
     (s.port 7).rekeyDue = true ∧ (s.port 7).rekeying = false) ∧
    (let s := (ported 4 51).modPort 7 fun k => { k with creditAt := [(7, 50)] }
     Sparse.get? (s.port 7).creditAt (laneKey 3 (b2n true)) = some 50 ∧ s.portState 7 = 4 ∧ 50 < s.now) ∧
    (let s := (ported 5 100000000).fillCredits 7
     s.portState 7 = 5 ∧ s.creditsFull 7 = true ∧ (s.port 7).since + 100000000 ≤ s.now ∧
       (recent (s.port 7).since 60000000000 (s.port 7).degrades).length < 3) ∧
    (∀ r ∈ [1, 2, 3], let s := (ported 6 10000000000).setFld (Reg.lnkStatus 7) Fld.lnkStatusReason r
      s.portState 7 = 6 ∧ s.fld (Reg.lnkStatus 7) Fld.lnkStatusReason = r ∧ (s.port 7).since + 10000000000 ≤ s.now ∧
        (s.port 7).authFails < 3) ∧
    (recent (ported 4 5).now 1000000000 ((ported 4 5).port 7).retrains).length < 2 ∧
    (let s := (ported 4 5).modPort 7 fun k => { k with retrains := [3, 4] }
     s.portState 7 = 4 ∧ 2 ≤ (recent s.now 1000000000 (s.port 7).retrains).length) ∧
    (let s := (ported 0 5).setFld (Reg.lnkCtl 7) Fld.lnkCtlDisable 1
     s.flag (Reg.lnkCtl 7) Fld.lnkCtlDisable = true ∧ s.portState 7 = 0 ∧ 1 < s.extent (7 / 2) ∧ 5 ≤ s.phase) := by
  decide +kernel

/-- A link block that carries nothing. -/
def emptyBlock (seq : Nat) : LinkBlock :=
  let f : Flit := { valid := false, vc := 0, cls := false, start := false, isEnd := false, abort := false, units := 0 }
  { errors := 16, seq := BitVec.ofNat 12 seq, ack := 0, nak := false, creditVc := 0, creditClass := false, credits := 0,
    flit0 := f, flit1 := f }

/-- A frame of a type from module 0x1000 for module 0. -/
def from1000 (typ : Nat) (ext payload : Bytes) : Frame :=
  { (up.newFrame 0 typ 3 ext payload) with src := 0x1000 }

/-- Port 7 in service, with module 0x1000 as its partner, which an entry of the remap table names. -/
def serving : State :=
  let s := (ported 4 1000).setFld (Reg.lnkStatus 7) Fld.lnkStatusPartner 0x1000
  ((s.setFld (Reg.fabRemap 0) Fld.fabRemapLogical 0x1000).setFld (Reg.fabRemap 0) Fld.fabRemapPhysical 0x1000).setFld
    (Reg.fabRemap 0) Fld.fabRemapValid 1

/-- The HELLO of module 0x1000. -/
def hello1000 : Hello :=
  { nonce := [], fabricId := 0, addr := 0x1000, port := 6, encrypt := false, key := [], chain := [] }

theorem wit_LinkBlocks :
    (serving.port 7).outq = [] ∧ (serving.port 7).lastReplay ≠ some (emptyBlock 1).ack.toNat ∧ (serving.port 7).creditAt = [] ∧
      (let b := { emptyBlock 1 with credits := 1 }
       b.errors ≤ 16 ∧ 0 < b.credits.toNat) ∧ { emptyBlock 1 with nak := true }.nak = true ∧
      ¬({ emptyBlock 1 with errors := 17 }.errors ≤ 16) ∧ (ported 1 0).linked 7 = false ∧
      ((serving.modPort 7 fun k => { k with nakSent := true }).port 7).nakSent = true := by decide +kernel

theorem wit_Hellos :
    (let s := (ported 2 1000).setFld (Reg.lnkStatus 7) Fld.lnkStatusPartner 0x1000
     let f := from1000 0xB [] (helloBytes hello1000)
     let v := (s.screen 7 f).1.beginRekey 7
     s.linked 7 = true ∧ f.typ.toNat = 0xB ∧ f.dst.toNat = s.self ∧ frameCrc f = true ∧ (s.screen 7 f).2 = true ∧
       f.payload = helloBytes hello1000 ∧ v.authFrom 7 f (.hello hello1000) = true ∧ v.portState 7 = 2) ∧
    (let f := from1000 0xB [] (authBytes (.proof []))
     let v := (serving.screen 7 f).1.beginRekey 7
     serving.linked 7 = true ∧ f.payload = authBytes (.proof []) ∧ v.authFrom 7 f (.proof []) = false) := by decide +kernel

theorem wit_Links :
    ((serving.linked 7 = true ∧ (emptyBlock 1).errors ≤ 16 ∧
      (emptyBlock 1).seq.toNat = ((serving.port 7).rxSeq + 1) % 4096 ∧ (emptyBlock 1).nak = false ∧ (emptyBlock 1).credits = 0) ∧
      (emptyBlock 2).seq.toNat ≠ ((serving.port 7).rxSeq + 1) % 4096 ∧ (serving.port 7).nakSent = false) ∧
    (let s := (ported 2 1000).setFld (Reg.lnkStatus 7) Fld.lnkStatusPartner 0x1000
     let f := from1000 0xB [] []
     s.linked 7 = true ∧ f.typ.toNat = 0xB ∧ (s.screen 7 f).2 = true ∧ (s.screen 7 f).1.authFrom 7 f (.hello hello1000) = true ∧
       (s.screen 7 f).1.authFrom 7 f (.proof []) = true ∧ (s.screen 7 f).1.portState 7 = 2 ∧
       (let t := s.modPort 7 fun k => { k with ownHello := some hello1000, hello := some hello1000 }
        ((t.screen 7 f).1.port 7).ownHello = some hello1000 ∧ ((t.screen 7 f).1.port 7).hello = some hello1000 ∧
          (t.screen 7 f).1.authFrom 7 f (.proof []) = true)) ∧
    (∀ typ ∈ [1, 7], let f := { from1000 typ [] [] with dst := 1 }
      serving.portState 7 = 4 ∧ f.dst.toNat ≠ serving.self ∧ (serving.screen 7 f).2 = true) ∧
    (let w : HeldFrame := { frame := from1000 1 [] [], sent := 0 }
     let s := { ported 4 100001 with heldFrames := [w] }
     s.heldFrames[0]? = some w ∧ w.sent + 100000 < s.now) ∧
    serving.alive = true ∧ serving.inService 7 = true := by decide +kernel

/-- A frame of a type passes at port 7 the checks of every frame. -/
def Arrives (s : State) (f : Frame) (typ : Nat) : Prop :=
  s.portState 7 = 4 ∧ f.typ.toNat = typ ∧ f.dst.toNat = s.self ∧ (s.screen 7 f).2 = true ∧ s.phase ≠ 0xF ∧ frameCrc f = true

theorem frameArrives_of_arrives (s : State) (f : Frame) (typ : Nat) (h : Arrives s f typ) :
    FrameArrives s (s.screen 7 f).1 7 f typ :=
  ⟨.inl h.1, h.2.1, h.2.2.1, Prod.ext rfl h.2.2.2.1, fun g => h.2.2.2.2.1 g.1, h.2.2.2.2.2⟩

theorem wit_FramesArrive : ∀ typ, typ < 13 → typ ≠ 0 → Arrives serving (from1000 typ [] []) typ := by
  unfold Arrives; decide +kernel

/-- The ACK entry of copy message 0 of queue 1. -/
def copyEntry : Bytes := leBytes 8 3

/-- A module that holds a COPY frame and a block for module 0x1000. -/
def holding : State :=
  { serving with heldFrames := [{ frame := { from1000 2 (leBytes 2 1 ++ List.replicate 14 0) [] with dst := 0x1000 }, sent := 0 },
      { frame := { from1000 1 (List.replicate 32 0) [] with dst := 0x1000 }, sent := 0 }] }

theorem wit_ArrivingFrames_ack_copy :
    (let f := from1000 4 [] copyEntry
     Arrives holding f 4 ∧ (holding.screen 7 f).1.heldFrames.any (ackReleases f) = true ∧
       (serving.screen 7 f).1.heldFrames.any (ackReleases f) = false) ∧
    (let f := from1000 2 (leBytes 4 0) []
     let s := (((serving.setReg (Reg.qmQCfg 0) 4).setFld (Reg.qmQPeer 0) Fld.qmQPeerCoord 0x1000).setFld (Reg.qmQPeer 0)
       Fld.qmQPeerKind 2).setReg (Reg.qmQState 0) 2
     let u := (s.screen 7 f).1
     Arrives s f 2 ∧ u.dinEnd 0 = true ∧ u.copyKind 0 = 2 ∧ some (u.peerCoord 0) = u.logicalOf f.src.toNat ∧ u.peerQueue 0 = 0 ∧
       u.qRunning 0 = true) := by
  unfold Arrives; decide +kernel
/-- A COPY frame of message 5 from queue 0 of module 0x1000 to queue 0, of `total` bytes, with its first four. -/
def copyOf (total : Nat) : Frame :=
  from1000 2 (leBytes 2 0 ++ leBytes 2 0 ++ leBytes 4 9 ++ leBytes 4 5 ++ leBytes 4 total ++ leBytes 4 0 ++ List.replicate 12 0)
    (leBytes 4 7)

/-- Queue 0 as the receiving end of queue 0 of module 0x1000. -/
def receiving : State :=
  (((serving.setReg (Reg.qmQCfg 0) 4).setFld (Reg.qmQPeer 0) Fld.qmQPeerCoord 0x1000).setFld (Reg.qmQPeer 0)
    Fld.qmQPeerKind 2).setReg (Reg.qmQState 0) 2

theorem wit_ArrivingFrames_copy :
    (∀ total ∈ [4, 5], let f := copyOf total
      let u := (receiving.screen 7 f).1
      Arrives receiving f 2 ∧ u.dinEnd 0 = true ∧ u.copyKind 0 = 2 ∧ u.logicalOf f.src.toNat = some (u.peerCoord 0) ∧
        u.peerQueue 0 = fieldAt f.ext 2 2 ∧ u.qTaking 0 = true ∧ (receiving.queue 0).recvSeq = none ∧
        (receiving.queue 0).arriving = [] ∧ (receiving.queue 0).partials = []) ∧
    assembled 4 [(0, (copyOf 4).payload)] = some (copyOf 4).payload ∧ assembled 5 [(0, (copyOf 5).payload)] = none ∧
    serialLe 6 5 = false ∧ serialLe 5 5 = true ∧ (receiving.setReg (Reg.qmQState 0) 4).qTaking 0 = false ∧
    (serving.screen 7 (copyOf 4)).1.dinEnd 0 = false := by
  unfold Arrives; decide +kernel
theorem wit_ArrivingFrames_drop :
    (let s := serving.setFld (Reg.lnkStatus 7) Fld.lnkStatusPartner 1
     let f := from1000 7 [] []
     Arrives s f 7 ∧ f.src.toNat ≠ (s.screen 7 f).1.partner 7) ∧
    (let f := from1000 8 [] (leBytes 4 0)
     Arrives serving f 8 ∧ bits (fieldAt f.payload 0 4) 0 16 = (serving.screen 7 f).1.self) ∧
    (let f := from1000 0xA [] (leBytes 4 0x1000 ++ leBytes 1 3)
     Arrives serving f 0xA ∧ (serving.screen 7 f).1.sentHeader f.payload = true) ∧
    (let f := from1000 0xA [] (leBytes 4 0x10001000 ++ leBytes 1 3)
     Arrives serving f 0xA ∧ (serving.screen 7 f).1.sentHeader f.payload = false) ∧
    (Arrives serving (from1000 5 [] (leBytes 8 0)) 5 ∧ serving.heldFrames = [] ∧ serving.buckets = []) ∧
    (let f := from1000 1 (leBytes 1 0x20 ++ List.replicate 31 0) []
     Arrives serving f 1 ∧ (parseHdr f.ext).kind = 2 ∧ (serving.screen 7 f).1.bucketFrom f.src.toNat 0 0 = none) := by
  unfold Arrives; decide +kernel
theorem wit_ArrivingFrames_time_link :
    (let f := from1000 7 [] []
     Arrives serving f 7 ∧ f.src.toNat = (serving.screen 7 f).1.partner 7) ∧
    (let f := from1000 8 [] (leBytes 4 0x1001 ++ leBytes 4 5)
     Arrives serving f 8 ∧ bits (fieldAt f.payload 0 4) 0 16 ≠ (serving.screen 7 f).1.self ∧ (serving.screen 7 f).1.faults = []) := by
  unfold Arrives; decide +kernel
theorem wit_ArrivingFrames_others :
    (let f := from1000 0xA [] (List.replicate 16 0)
     Arrives serving f 0xA ∧ fieldAt f.payload 2 2 = (serving.screen 7 f).1.self) ∧
    (let f := from1000 5 [] (leBytes 8 0)
     Arrives holding f 5 ∧ ((holding.screen 7 f).1.heldFrames.find? (fun h => h.frame.dst = f.src && h.frame.typ.toNat = 1 &&
       fieldAt h.frame.ext 10 2 = 0 && bits (fieldAt h.frame.ext 22 1) 0 4 = 0 && fieldAt h.frame.ext 12 4 = 0)).isSome = true) ∧
    (let f := from1000 1 (List.replicate 32 0) []
     Arrives serving f 1 ∧ (serving.screen 7 f).1.bucketFrom f.src.toNat 0 0 = none) := by
  unfold Arrives; decide +kernel

/-- A block of 32 elements that hop 1 of a bucket brings from element `first`. -/
def blockFrom (kind first mode : Nat) : Frame :=
  let h := { parseHdr (List.replicate 32 0) with kind := kind, fmt := if kind = 2 then 0x14 else 0x24, elements := 32, tag := 2, step := 9, hop := 1
                                                 first := first, mode := mode, last := true }
  let bs := blockBytes h (List.replicate (expandedSize h.fmt 32) 0)
  from1000 1 (bs.take 32) (bs.drop 32)

/-- A module with a bucket in flight on the ring of dimension 3, its neighbour 0x1000. -/
def ringed (b : Bucket) : State := State.setBucket serving 127 b

/-- A bucket of 64 elements on that ring. -/
def onRing (st : BktState) : Bucket := { bucketIn st with elems := 64, hop := 1, axis := 3 }

theorem wit_ReduceBlocks :
    let f := blockFrom 1 0 0
    let b := onRing .reduce
    let u := ((ringed b).screen 7 f).1
    let g := { f with payload := f.payload.drop 1 }
    Arrives (ringed b) f 1 ∧ u.bucketFrom f.src.toNat 2 9 = some (127, b) ∧ Sparse.get? u.buckets 127 = some b ∧ b.axis < 4 ∧
      1 ≤ (parseHdr f.ext).hop ∧ (parseHdr f.ext).hop < u.ringLen b ∧ b.accepted.contains (blockId 1 1 0) = false ∧
      { b with accepted := [blockId 1 1 0] }.accepted.contains (blockId 1 1 0) = true ∧
      blockStatus f (parseHdr f.ext) (u.reduceFits b (parseHdr f.ext)) [] = none ∧ Arrives (ringed b) g 1 ∧
      blockStatus g (parseHdr g.ext) (u.reduceFits b (parseHdr g.ext)) [] = some 0x13 ∧ Sparse.get 0 b.attempts (blockId 1 1 0) = 0 ∧
      Sparse.get 0 { b with attempts := [(blockId 1 1 0, 3)] }.attempts (blockId 1 1 0) + 1 = 4 ∧ u.portState 7 = 4 := by
  unfold Arrives; decide +kernel
theorem wit_GatherBlocks :
    (let f := blockFrom 2 32 0
     let b := onRing .gather
     let u := ((ringed b).screen 7 f).1
     let shard := u.gatherShard b 1
     Arrives (ringed b) f 1 ∧ u.bucketFrom f.src.toNat 2 9 = some (127, b) ∧ Sparse.get? u.buckets 127 = some b ∧
       Sparse.rising none u.buckets = true ∧ b.accepted.contains (blockId 2 1 32) = false ∧ (parseHdr f.ext).mode = 0 ∧
       blockStatus f (parseHdr f.ext) (u.gatherFits b (parseHdr f.ext)) [] = none ∧ b.arrived = [] ∧ f.ext.length = 32 ∧
       (blockPlan b.wfmt (u.shard b shard).1 (u.shard b shard).2)[(Sparse.get (0, 0) b.stored shard).1]? = some (32, 32) ∧
       (ringed b).memWf = true ∧ ∀ y ∈ [0, b.act], (ringed b).defaultEvq y = none) ∧
    (let f := blockFrom 2 32 1
     let b := { onRing .gather with entry := tableEntry.set 31 1 }
     let u := ((ringed b).screen 7 f).1
     let h := parseHdr f.ext
     h.mode = 1 ∧ u.tableImage h.slot h.gen = none ∧ crcFits f.ext f.payload = true ∧ hdrFits f.ext = true ∧ b.wmode = 1 ∧
       u.gatherFits b h = true ∧ f.payload.length = h.packed) := by
  unfold Arrives; decide +kernel
theorem wit_Votes :
    let f := from1000 6 [] (leBytes 2 2 ++ leBytes 2 1 ++ leBytes 4 9 ++ List.replicate 12 0)
    let b := onRing .vote
    let u := ((ringed b).screen 7 f).1
    Arrives (ringed b) f 6 ∧ u.bucketFrom f.src.toNat 2 9 = some (127, b) ∧ Sparse.get? u.buckets 127 = some b ∧
      u.holds_ b.act = true ∧ 1 < u.ringLen b ∧ 1 ≠ u.ringAt b ∧ b.votes = [] := by
  unfold Arrives; decide +kernel

/-! Witnesses: the Safety Net. -/

/-- A module of a job whose wardens are module `pri` and module 0x1000, with heartbeats of 200 ns. -/
def guarding (pri : Nat) : State :=
  (((serving.setFld Reg.fabSelf Fld.fabSelfLogicalValid 1).setFld Reg.netWarden Fld.netWardenPrimary pri).setFld
    Reg.netWarden Fld.netWardenBackup 0x1000).setFld Reg.netHb Fld.netHbTimeoutNs 200

/-- A HEARTBEAT of a kind from module 0x1000. -/
def beat (kind subject step tag : Nat) : Frame := from1000 9 [] (heartbeatBytes kind subject step 0 tag)

theorem wit_HeartbeatFrames :
    (∀ k, k < 10 → (guarding 0).alive = true ∧ fieldAt (beat k 0 0 0).payload 0 1 = k ∧ Arrives (guarding 0) (beat k 0 0 0) 9) := by
  unfold Arrives; decide +kernel

theorem wit_Heartbeats :
    (guarding 0).ready = true ∧
    (let u (k subject : Nat) : State := ((guarding 0).screen 7 (beat k subject 0 0)).1
     (u 0 0).neighbours.contains 0x1000 = true ∧ ((ported 4 1000).screen 7 (beat 0 0 0 0)).1.neighbours.contains 0x1000 = false ∧
       (u 1 1).isWarden = true ∧ ((u 1 0).logicalOf 0).any (fun l => ((u 1 0).neighboursOf l).contains 0x1000) = true ∧
       (u 4 0x1000).wardenOf 0x1000 = (u 4 0x1000).self) ∧
    (let s := { guarding 0 with probes := [{ subject := 0x1000, since := 900, stage := 0 }] }
     (s.screen 7 (beat 3 0 0 0)).1.waitsProbe 0x1000 = true) ∧
    (let s := { guarding 0 with peers := [{ addr := 1, lastBeat := 799 }], probes := [{ subject := 1, since := 799, stage := 0 }] }
     s.peers.find? (fun y => y.addr = 1) = some { addr := 1, lastBeat := 799 } ∧ 799 + s.hbTimeout < s.now ∧
       (s.suspicions.any fun y => y.subject = 1) = false ∧
       s.probes.find? (fun y => y.subject = 1 && decide (y.since + s.hbTimeout < s.now)) =
         some { subject := 1, since := 799, stage := 0 }) ∧
    (let s := { guarding 1 with probes := [{ subject := 1, since := 799, stage := 1 }] }
     ((s.probes.erase { subject := 1, since := 799, stage := 1 }).any fun v => v.stage = 1) = false) ∧
    (∀ st ∈ [1, 2], let w : Watch := { subject := 1, since := 199, stage := st }
      let s := { guarding 0 with suspicions := [w] }
      s.suspicions.find? (fun y => y.subject = 1) = some w ∧ w.since + 4 * s.hbTimeout < s.now) := by decide +kernel

theorem wit_HeartbeatTimes :
    (guarding 0).beatDue = true ∧ (let s := { (guarding 0).setFld Reg.netHb Fld.netHbPeriodNs 1 with beatAt := some 1000 }
      s.ready = true ∧ s.beatDue = false) ∧ ((guarding 0).setFld Reg.topState Fld.topStatePhase 5).ready = false ∧
    (let s := { guarding 0 with peers := [{ addr := 1, lastBeat := 800 }] }
     s.peers.find? (fun y => y.addr = 1) = some { addr := 1, lastBeat := 800 } ∧ s.now ≤ 800 + s.hbTimeout) ∧
    ((guarding 0).wardenOf 1 = (guarding 0).self ∧ (guarding 1).wardenOf 2 ≠ (guarding 1).self ∧ (guarding 0).probes = [] ∧
      (guarding 0).lostModules = [] ∧ (guarding 0).fabricHalted = false) ∧
    (let u (k : Nat) : State := ((guarding 1).screen 7 (beat k 1 0 0)).1
     (u 1).isWarden = false ∧ (0x1000 = (u 2).backup) ∧ (u 3).waitsProbe 0x1000 = false ∧ (u 4).wardenOf 1 ≠ (u 4).self ∧
       ((u 9).neighbours.contains 0x1000 = true ∧ (u 9).probes = [])) ∧
    (let u := (((guarding 1).setFld Reg.netWarden Fld.netWardenBackup 2).screen 7 (beat 2 0 0 0)).1
     u.isWarden = false ∧ 0x1000 ≠ u.primary ∧ 0x1000 ≠ u.backup) ∧
    (let s := { guarding 1 with probes := [{ subject := 1, since := 799, stage := 1 }, { subject := 2, since := 900, stage := 1 }] }
     s.probes.find? (fun y => y.subject = 1 && decide (y.since + s.hbTimeout < s.now)) =
         some { subject := 1, since := 799, stage := 1 } ∧
       ((s.probes.erase { subject := 1, since := 799, stage := 1 }).any fun v => v.stage = 1) = true) ∧
    (let s := { guarding 0 with suspicions := [{ subject := 1, since := 200, stage := 1 }] }
     s.now ≤ 200 + 4 * s.hbTimeout) := by decide +kernel

theorem wit_Remaps :
    (let f := from1000 0xC [] (remapBytes 1 0 7 0x1000 0x1000 [(1, 2)])
     let s := guarding 0x1000
     s.alive = true ∧ Arrives s f 0xC ∧ (s.screen 7 f).1.remapOk f = true ∧ remapEntries f.payload ≠ [] ∧
       fieldAt f.payload 8 4 ≠ 0xFFFFFFFF ∧ ({ s with remapGen := 1 }.screen 7 f).1.remapOk f = false) ∧
    let f := from1000 0xC [] (remapBytes 1 0 0 0x1000 0x1000 [])
    let s := guarding 0x1000
    s.alive = true ∧ Arrives s f 0xC ∧ (s.screen 7 f).1.remapOk f = true ∧ remapEntries f.payload = [] := by
  unfold Arrives; decide +kernel

/-- A checkpoint of step 4 with one slice. -/
def checkpoint : Ckpt := { step := 4, slices := [{ tag := 2, snapped := true, acked := false }], slot := 0, doneSent := false }

theorem wit_CheckpointFrames :
    (let f := from1000 3 (ckptExt 2 4 0 0 0) []
     Arrives (guarding 0) f 3 ∧ ((ported 4 1000).screen 7 f).1.ckptFrom 0x1000 = none ∧
       (((guarding 0).setFld Reg.netCkpt Fld.netCkptBuddyAxis 3).screen 7 f).1.ckptFrom 0x1000 ≠ none) ∧
    (let s := { (guarding 0).setFld Reg.netCkpt Fld.netCkptBuddyAxis 3 with ckpt := some checkpoint }
     let u := (s.screen 7 (beat 7 0 4 2)).1
     Arrives s (beat 7 0 4 2) 9 ∧ 0x1000 = u.buddyOf u.selfLogical true ∧ u.ckpt = some checkpoint ∧
       checkpoint.step = fieldAt (beat 7 0 4 2).payload 4 4) := by
  unfold Arrives; decide +kernel

theorem wit_CheckpointSenders :
    (guarding 0).partsIn = [] ∧ (guarding 0).rollback = none ∧ (guarding 0).restoredBy = [] ∧
    (let u := ((guarding 0).screen 7 (beat 7 0 4 2)).1
     0x1000 ≠ u.buddyOf u.selfLogical true) ∧
    (let s := (guarding 0).setFld Reg.netCkpt Fld.netCkptBuddyAxis 3
     let u := (s.screen 7 (beat 7 0 4 2)).1
     0x1000 = u.buddyOf u.selfLogical true ∧ u.ckpt = none) ∧
    (let u := ((guarding 0x1000).screen 7 (beat 5 0 4 0)).1
     u.self ≠ u.primary) ∧
    (let u := (((guarding 0x1000).setFld Reg.netCkpt Fld.netCkptLastStep 4).screen 7 (beat 6 0 4 0)).1
     u.fld Reg.netCkpt Fld.netCkptLastStep ≠ 0xFFFFFFFF ∧ ¬u.fld Reg.netCkpt Fld.netCkptLastStep < 4) ∧
    (let r : Rollback := { step := 4, act := 0, replaced := false, restored := true, complete := true, todo := [] }
     let u := ({ guarding 0 with rollback := some r }.screen 7 (beat 8 0 4 0)).1
     u.self = u.primary ∧ u.rollback = some r ∧ u.jobModules.all [0x1000].contains = false) ∧
    (let r : Rollback := { step := 4, act := 0, replaced := false, restored := false, complete := false, todo := [] }
     let s := { guarding 0 with rollback := some r }
     s.rollback = some r ∧ r.restored = false ∧ s.rollbackCopy r = none) := by decide +kernel

theorem wit_Checkpoints :
    (let u := ((guarding 0).screen 7 (beat 5 0 4 0)).1
     u.self = u.primary ∧ (u.jobModules.all fun a => (u.wardenDone ++ [(4, 0x1000)]).contains (4, a)) = false ∧
       fieldAt (beat 5 0 4 0).payload 4 4 = 4) ∧
    (let u := ((guarding 0x1000).screen 7 (beat 6 0 4 0)).1
     0x1000 = u.primary ∧ u.fld Reg.netCkpt Fld.netCkptLastStep = 0xFFFFFFFF) ∧
    (let r : Rollback := { step := 4, act := 0, replaced := false, restored := false, complete := false, todo := [] }
     let s := { guarding 0 with rollback := some r, snaps := [(0, { step := 4, slices := [], seed := 0 })] }
     s.rollback = some r ∧ s.ready = true ∧ s.rollbackDrained r = true ∧ s.rollbackCopy r ≠ none) := by decide +kernel

/-- The warden of a fabric of 16 modules, all of which have reported step 4. -/
def lastReport : State := { guarding 0 with wardenDone := (List.range 16).map fun i => (4, bits i 0 1 + 16 * bits i 1 1 + 256 * bits i 2 1 + 4096 * bits i 3 1) }

/-- What holds of every address's module holds of the modules of jobs. -/
theorem all_jobs (u : State) (P : Nat → Bool) (h : u.addresses.all (fun a => P (u.physOf a)) = true) :
    u.jobModules.all P = true := by
  simp only [State.jobModules, List.all_map, List.all_eq_true, List.mem_filter] at h ⊢
  exact fun a ha => h a ha.1

theorem wit_CheckpointIsCommitted :
    (lastReport.screen 7 (beat 5 0 4 0)).1.jobModules.all
      (fun a => ((lastReport.screen 7 (beat 5 0 4 0)).1.wardenDone ++ [(4, 0x1000)]).contains (4, a)) = true :=
  all_jobs _ _ (by decide +kernel)

theorem wit_EveryModuleRestored :
    let s := { guarding 0 with restoredBy := lastReport.wardenDone.map Prod.snd }
    let u := (s.screen 7 (beat 8 0 4 0)).1
    u.jobModules.all u.restoredBy.contains = true :=
  all_jobs _ _ (by decide +kernel)

/-- A core whose context 0 runs a stream that neither waits nor has ended, at tick 2,000,000. -/
def watched : State := { (bound.modCtx 3 0 fun c => { c with cur := some (bundle 0 0), lastIssue := 1 }).setFld
  (Reg.netCore 3) Fld.netCoreState 3 with now := 2000000 }

/-- Core 3 tests itself as a spare of die 0 for logical core 5 of the headline act. -/
def testing : State :=
  State.setFld (up.modCore 3 fun k => { k with testing := some (0, 5, 0) }) (Reg.netCore 3) Fld.netCoreState 2

theorem wit_CoreFaults :
    (watched.alive = true ∧ watched.coreState 3 ≠ 0 ∧ watched.coreState 3 ≠ 4 ∧ watched.ctxWatched 3 0 = true ∧
      max (watched.ctx 3 0).lastIssue (watched.core 3).progressAt + watched.fld Reg.netCtl Fld.netCtlWdogUs * 1000 <
        watched.now) ∧
    (let s := { up.modCore 3 fun k => { k with fenceAt := some 0 } with now := 5000001 }
     (s.core 3).fenceAt = some 0 ∧ 0 + 5000000 < s.now) ∧
    ((testing.core 3).testing = some (0, 5, 0) ∧ testing.coreState 3 = 2 ∧ testing.hosted 0 5 = false ∧ 0 = testing.headline ∧
      (testing.modCore 4 fun k => { k with logical := [(0, 5)] }).hosted 0 5 = true) ∧
    (let e : CmdEntry := { count := 0, stream := 0, words := 2, near := false, resume := 0, resumeKib := 0, bad := [] }
     let s := ((queued 1 2).modQueue 0 fun k => { k with entries := [e] }).modCore 0 fun k => { k with recover := [0, 1] }
     (s.core 0).recover = 0 :: [1] ∧ s.coreRuns 0 = true ∧ s.streamReady 0 = true ∧ s.bindTarget 0 = some (0, 0) ∧
       (s.queue 0).entries = e :: [] ∧ (s.ctx 0 0).queue = none ∧ (up.modCore 0 fun k => { k with recover := [0] }).streamReady 0 = false) ∧
    (up.hostOk 0 = true ∧ up.started = true ∧ (up.setFld (Reg.netCore 3) Fld.netCoreState 4).coreState 3 = 4 ∧
      (up.setFld (Reg.netCore 3) Fld.netCoreState 2).coreState 3 = 2 ∧ (up.core 3).testing = none) := by decide +kernel

theorem wit_FaultsThatDoNothing :
    (up.alive = true ∧ up.ctxWatched 3 0 = false ∧ (up.core 3).fenceAt = none ∧ (up.core 3).testing = none ∧ (up.core 3).recover = [] ∧
      up.coreState 3 ≠ 4) ∧
    (let s := { up.modCore 3 fun k => { k with fenceAt := some 0 } with now := 5000000 }
     (s.core 3).fenceAt = some 0 ∧ s.now ≤ 0 + 5000000) ∧
    (let s := { watched with now := 1000001 }
     s.ctxWatched 3 0 = true ∧ ¬(max (s.ctx 3 0).lastIssue (s.core 3).progressAt + s.fld Reg.netCtl Fld.netCtlWdogUs * 1000 < s.now)) ∧
    (up.waitSince 3 = none ∧ up.hostOk 8 = true ∧ (trained.setFld Reg.memStackOk Fld.memStackOkMap 0).stackUp 31 = false ∧
      { trained with stackLost := some 0 }.stackLost ≠ none) ∧
    ((let s := { up with railRuns := [(0, 99)] }
      Sparse.get 0 s.railRuns 0 = 99 ∧ Sparse.rising none s.railRuns = true) ∧ railWarns 0 45999 = true ∧ railTrips 0 45999 = false ∧
      railWarns 0 50000 = false ∧ railTrips 0 50000 = false) := by decide +kernel

theorem wit_ModuleFaults :
    (trained.stackUp 31 = true ∧ trained.stackLost = none ∧ trained.fitsWithout 31 = true ∧ trained.phase ≠ 0xF) ∧
    (railTrips 0 43999 = true ∧ railTrips 0 44000 = false ∧ railWarns 0 46000 = false ∧
      Sparse.get 0 ({ up with railOver := [(0, 2)] } : State).railOver 0 = 2 ∧ Sparse.rising none up.railRuns = true ∧
      Sparse.rising none up.railOver = true) ∧
    (up.fld (Reg.netTemp 9) Fld.netTempLevel = 0 ∧ tempLevel 0 1839 = 2 ∧ tempLevel 0 1840 = 3 ∧ tempLevel 2 0 = 0) := by
  decide +kernel

/-- A doubled core whose stream waits for a semaphore while its other logical core has a stream to run. -/
def doubled : State :=
  let s := ((((queued 1 2).setReg (Reg.qmQCfg 1) 1).setFld (Reg.qmQCfg 1) Fld.qmQCfgCore 1).setReg (Reg.qmQState 1) 2).setReg
    (Reg.qmQPtr 1) (2 ^ 32)
  let s := (s.modQueue 1 id).modCore 3 fun k => { k with logical := [(0, 0), (0, 1)] }
  (s.setFld (Reg.netCore 3) Fld.netCoreState 5).modCtx 3 0 fun c =>
    { c with queue := some 0, wait := some { sem := 0, n := 1, deadline := none, pd := 0, off := 0, tag := 0, began := 0 } }

theorem wit_DoubledSwap :
    doubled.waitSince 3 = some 0 ∧ doubled.otherReady 3 = true ∧ (doubled.ctx 3 0).queue = some 0 ∧
      (let s := { doubled with now := 10000000000 }
       s.fld Reg.netCtl Fld.netCtlSwapWait * 40 ≤ s.now - 0) := by decide +kernel

/-! Witnesses: flash, black box, power, start-up and management. -/

/-- Flash command `cmd` has started at address 0x3FFF700 and the mirror has 8 entries to program, at tick `now`. -/
def flashing (cmd : Nat) : State :=
  { up with flashOp := some { cmd := cmd, addr := 0x3FFF700, data := List.replicate 256 1, started := true }
            mirror := { unflushed := List.replicate 8 (0, List.replicate 32 7), programming := none, active := true } }

theorem wit_Flash :
    (up.hostOk 0 = true ∧ up.flag Reg.bootFlashCmd Fld.bootFlashCmdBusy = false ∧ up.flashDenied 0 = false ∧
      up.flashDenied 0x3FFF700 = true) ∧
    (∀ c ∈ [1, 2, 3], (flashing c).alive = true ∧ (flashing c).warned = false ∧ (flashing c).flashOff = false ∧ (flashing c).memWf = true) ∧
    ((flashing 1).mirror.active = true ∧ (flashing 1).mirror.unflushed ≠ [] ∧
      (flashing 1).pageRoom ≤ (flashing 1).mirror.unflushed.length ∧
      (let l := List.replicate 8 (List.replicate 32 (7 : Byte))
       l.length ≤ 8 ∧ l.flatten.length ≤ 256)) ∧
    (up.flag Reg.bbxStatus Fld.bbxStatusFrozen = false ∧
      (up.setFld Reg.bbxStatus Fld.bbxStatusFrozen 1).flag Reg.bbxStatus Fld.bbxStatusFrozen = true) ∧
    (let s := { up with power := { up.power with pwrOk := true } }
     s.power.pwrOk = true ∧ s.power.inReset = false ∧ s.warned = false) ∧
    ({ up with power := { up.power with warnAt := some 5 } } : State).warned = true := by decide +kernel

theorem wit_FlashThatDoesNothing :
    ((flashing 2).flashOp.map FlashOp.started = some true ∧ up.flashOp = none ∧ up.mirror.programming = none ∧
      (up.setFld Reg.bootFlashCmd Fld.bootFlashCmdBusy 1).flag Reg.bootFlashCmd Fld.bootFlashCmdBusy = true ∧ up.warned = false) ∧
    (let s := { flashing 2 with power := { up.power with warnAt := some 5 } }
     s.warned = true ∧ s.alive = true) ∧
    (let s := { flashing 2 with power := { up.power with warnAt := some 0 }, now := 10000000 }
     s.flashOff = true) ∧
    (let s := { up with mirror := { (flashing 1).mirror with unflushed := [(up.now - 999999, [])] } }
     s.mirror.unflushed.length < s.pageRoom ∧ s.flag Reg.bbxStatus Fld.bbxStatusFrozen = false) ∧
    (let s := { flashing 2 with mirror := { (flashing 2).mirror with programming := some (List.replicate 8 (List.replicate 32 7)) } }
     s.mirror.programming = some (List.replicate 8 (List.replicate 32 7)) ∧ s.flashOff = false ∧ s.memWf = true) := by
  decide +kernel

theorem wit_Power :
    (({ State.reset.power with vinOk := false } : Power).vinOk = false ∧ (∀ order, order < 8 → ∃ p : Power, p.running = true ∧ p.stage = order)) ∧
    (let p := { State.reset.power with pwrOk := false, stage := 0, failures := 1 }
     p.vinOk = true ∧ p.running = false ∧ p.pwrOk = false ∧ p.failures = 1 ∧ p.stage = 0) ∧
    (up.hostOk 0 = true ∧ 0x1B007 % 65536 = 0xB007 ∧ 0xB008 % 65536 ≠ 0xB007) ∧
    (let p := { State.reset.power with pwrOk := true }
     p.inReset = true ∧ p.pwrOk = true) ∧
    (let s := { (up.setFld Reg.pwrStatus Fld.pwrStatusState 3) with power := { up.power with cappedSince := some 5 }, now := 100000005 }
     s.alive = true ∧ s.fld Reg.pwrStatus Fld.pwrStatusState = 3 ∧ s.power.cappedSince = some 5 ∧ 5 + 100000000 ≤ s.now) := by
  refine ⟨⟨rfl, fun o _ => ⟨{ State.reset.power with running := true, stage := o }, rfl, rfl⟩⟩, ?_⟩
  decide +kernel

/-- A module in a phase of start-up. -/
def starting (n : Nat) : State := up.setFld Reg.topState Fld.topStatePhase n

theorem wit_StartUp :
    (∀ n, n < 6 → (starting n).alive = true ∧ (starting n).power.halted = false ∧ (starting n).phase = n) ∧
    (let s := (starting 2).setFld Reg.bootStatus Fld.bootStatusFwOk 1
     s.flag Reg.bootStatus Fld.bootStatusFwOk = true ∧ s.slotInUse = 0 ∧ s.fld Reg.bootStatus Fld.bootStatusPbErrA = 0) ∧
    (starting 3).farWindows = [] ∧ (starting 4).headline = 0 ∧
    ((starting 4).coreState 0 ≠ 0 ∧ (starting 4).coreState 0 ≠ 4) ∧
    ((starting 5).portsUp = true ∧ (starting 5).timeFound = true) ∧
    (let s := { (starting 5).setFld Reg.sckCtl Fld.sckCtlSource 1 with now := 60000000001 }
     s.phaseAt + 60000000000 < s.uptime ∧ s.timeFound = false) := by decide +kernel

theorem wit_Management :
    (let s := { up with power := { up.power with pwrOk := true } }
     s.power.pwrOk = true ∧ s.update = none ∧ s.flashOff = false ∧ s.memWf = true ∧
       (∀ c ∈ [1, 2], 0x7FFFFE + [(1 : Byte), 2].length ≤ (areaRange (({ s with update := some c } : State).updateArea c)).2)) ∧
    (drivesPins .extest = true ∧ drivesPins .bypass = false ∧ up.alive = true ∧ up.phase = 6 ∧ (starting 5).phase < 6) ∧
    (up.hostOk 0 = true ∧ up.started = true ∧ up.reg Reg.prbExpiry < up.now) := by decide +kernel

/-! Witnesses: the whole machine. -/

theorem wit_StepRunsFrontCommand :
    ({ up with pending := [.nop 3 0 0] } : State).pending = [.nop 3 0 0] ∧ State.reset.pending = [] ∧
      State.reset.alive = false ∧ up.pending = [] ∧ up.alive = true ∧
      (let b : TsBank := { gen := 3, image := [] }
       let s := { up with ts := [(5, { cur := none, prev := some b, by_ := none })] }
       (s.tsSlot 5).prev = some b ∧ s.tsRefs 5 b.gen = 0 ∧ (s.tsSlot 5).by_ = none) := by decide +kernel

theorem wit_Canonical : MemoriesCanonical State.reset ∧ TablesCanonical State.reset ∧ MemoriesCanonical (flashing 2) := by
  refine ⟨by unfold MemoriesCanonical; decide +kernel, ⟨by intro p hp; exact absurd hp List.not_mem_nil, by decide, by decide, by decide⟩,
    by unfold MemoriesCanonical; decide +kernel⟩

theorem wit_Steps : Steps State.reset State.reset ∧ ∃ t, Steps { up with pending := [.nop 3 0 0] } t := by
  exact ⟨rfl, _, rfl⟩

/-! The spec's worked examples. -/

/-- A binary32 value m × 2^e. -/
def num (m : Int) (e : Int) : Nat := f32of ⟨m, e⟩

/-- 0.3, 40.0, 0.9 and 0.05 in binary32. -/
def p3 : Nat := 0x3E99999A
def p9 : Nat := 0x3F666666
def p05 : Nat := 0x3D4CCCCD

/-- Worked conversions, single values: 0.3 is 0x32 in OX8, 300 saturates to 0x7E and is 0x4396 in OX16. -/
theorem test_single_conversions : toShort 0x20 .rne 0 0xA0 p3 = (0x32, 0) ∧ toShort 0x20 .rne 0 0xA0 (num 300 0) = (0x7E, flSat) ∧
    toOx16 .rne 0 (num 300 0) = (0x4396, 0) := by decide +kernel

/-- The group of the worked conversion, with the outlier `x` at index 9. -/
def outliers (x : Nat) : List Nat := (List.range 32).map fun i =>
  if i = 2 then p9 else if i = 5 then num 40 0 else if i = 17 then num (-25) 0 else if i = 7 then p3 + 2 ^ 31
  else if i = 9 then x else p05

/-- Worked conversion of a group in OX4B-32 with E = 2: scale, escapes, side list, and the codes of 0.9, −0.3 and 0.05. -/
theorem test_group_conversion :
    let g := convertGroup 0x15 .rne none id (outliers 0)
    g.scale = 0x98 ∧ g.side = [0x42200085, 0xC1C80091] ∧ g.codes[2]? = some 7 ∧ g.codes[5]? = some 8 ∧ g.codes[7]? = some 0xB ∧
      g.codes[8]? = some 1 ∧ g.codes[17]? = some 8 ∧ g.flags = 0 := by decide +kernel
theorem test_group_overflow :
    let g := convertGroup 0x15 .rne (some 0x98) id (outliers (num 12 0))
    g.side = [0x42200085, 0xC1C80091] ∧ g.codes[9]? = some 7 ∧ g.flags = flSideOvf ||| flSat := by decide +kernel

/-- The tap example of Matrix Engines: the entry goes from 1.5 to 36.7578125. -/
theorem test_tap :
    let el (s f c side : Nat) : El := { scale := s, poison := false, x := if side = 0 then codeOpd f c else .esc side }
    let a (c side : Nat) := el 0x9C 0x20 c side
    let w (c side : Nat) := el 0x94 0x10 c side
    tapRow 1 (num 3 (-1)) [[(a 0x44 0, w 5 0), (a 0xB8 0, w 7 0), (a 0x80 0x42C0, w 6 0), (a 0x3E 0, w 0xB 0), (a 0x30 0, w 8 0xC0C0)]] =
      num 9410 (-8) := by decide +kernel

/-- The near address example: 700 GiB + 10,000 is on stack 6, and on stack 7 once stack 6 is lost. -/
theorem test_stack : State.reset.stackOf (700 * 2 ^ 30 + 10000) = 6 ∧
    ({ State.reset with stackLost := some 6 } : State).stackOf (700 * 2 ^ 30 + 10000) = 7 := by decide +kernel

/-- Table 10.3: the agreed scale of AMAX 13.5 with HEADROOM 2, and the element's codes round the ring, with one bump. -/
theorem test_reduce_scatter : agreedScale (num 27 (-1)) 2 = 0x98 ∧
    ([(3, 0x5C), (8, 0x68), (20, 0x72), (36, 0x79), (48, 0x7C)].all fun p =>
      sendGroup 0x24 .rne id 0x98 [num p.1 0] = (0x98, [p.2], false)) = true ∧
    sendGroup 0x24 .rne id 0x98 [num 64 0] = (0x9C, [0x78], true) ∧ sendGroup 0x24 .rne id 0x9C [num 72 0] = (0x9C, [0x79], false) := by
  decide +kernel

/-- The optimizer example: m becomes 0.1435546875, exactly. -/
theorem test_adamw_moment :
    let hp := leBytes 4 0x3A83126F ++ leBytes 4 (num 7 (-3)) ++ leBytes 4 (num 63 (-6)) ++ leBytes 4 0x322BCC77 ++
      leBytes 4 0x3C23D70A ++ leBytes 4 (num 1 (-8)) ++ leBytes 8 0
    (adamw { bucketIn .update with hp := hp } (num 3 (-1)) (num 1 (-3)) (num 1 (-1)) (num 70 0)).2.1 = num 147 (-10) := by
  decide +kernel

/-- The fault example of Table 11.9: from 2 to (5,1,0,0) in 8 × 4 × 4 × 4 the frame takes X+, and X− while a link of (3,0,0,0) is
out of service. -/
def eight : State :=
  { ((up.setReg Reg.fabExtent 0x3337).setFld Reg.fabSelf Fld.fabSelfAddr 2).setFld (Reg.lnkStatus 0) Fld.lnkStatusState 4 with
    faults := [] }.setFld (Reg.lnkStatus 1) Fld.lnkStatusState 4
theorem test_route :
    let f := eight.newFrame 0x15 2 2 [] []
    eight.nextPort f none = .out 0 f ∧
      ({ eight with faults := [{ addr := 3, port := 0, state := 7, gen := 1 }] } : State).nextPort f none = .out 1 f := by
  decide +kernel

/-- The pixel example of Input Pipeline: the normalized components 1.783932, −0.258991 and 0.209132 are 0x46, 0xB0 and 0x2D. -/
theorem test_pixel_codes : [0x3FE457E2, 0xBE849A7F, 0x3E5626BE].map (fun x => (toShort 0x20 .rne 0 0xA0 x).1) = [0x46, 0xB0, 0x2D] := by
  decide +kernel

end Sys2Proof.Tests
end

section
/-! The fuses never change (R1, R3). -/

namespace Sys2Proof.Machine

/-- Every command is a guarded one, and its guard is the check of the units that it names. -/
theorem exec_eq_whenUnits (c : Instr) (s : State) : ∃ t, exec c s = whenUnits s c.wf t := by
  cases c <;> exact ⟨_, rfl⟩

/-- No command changes the fuses. -/
theorem exec_fuse {c : Instr} {s t : State} (h : exec c s = .next t) : t.fuse = s.fuse := by
  obtain ⟨u, he⟩ := exec_eq_whenUnits c s
  obtain ⟨-, rfl⟩ := whenUnits_cases s (he ▸ h)
  rfl

section Tick

variable (s : State)

/-- A list of changes of which none changes the fuses does not change them. -/
theorem State.each_fuse {α : Type} (l : List α) {f : α → State → State} (hf : ∀ a t, (f a t).fuse = t.fuse) :
    (s.each l f).fuse = s.fuse :=
  State.each_keeps (fun t => t.fuse = s.fuse) f l s (fun a _ t ht => (hf a t).trans ht) rfl

/-- The fuses of one of two states. -/
theorem State.ite_fuse (p : Prop) [Decidable p] (a b : State) :
    (if p then a else b).fuse = if p then a.fuse else b.fuse := by
  split <;> rfl

@[simp] theorem State.addSat_fuse (k : Nat) (f : Fld) (n : Nat) : (s.addSat k f n).fuse = s.fuse := rfl
@[simp] theorem State.addWrap_fuse (k : Nat) (f : Fld) (n : Nat) : (s.addWrap k f n).fuse = s.fuse := rfl
@[simp] theorem State.addOpen_fuse (k : Nat) (f : Fld) (n : Nat) : (s.addOpen k f n).fuse = s.fuse := rfl
@[simp] theorem State.setHold_fuse (a : Nat) (h : Hold) : (s.setHold a h).fuse = s.fuse := rfl
@[simp] theorem State.ringDrop_fuse (q stamp : Nat) : (s.ringDrop q stamp).fuse = s.fuse := rfl

@[simp] theorem State.writeMem_fuse (sp : Space) (a : Nat) (bs : Bytes) : (s.writeMem sp a bs).fuse = s.fuse := by
  cases sp with
  | far p => simp only [State.writeMem]; split <;> rfl
  | _ => rfl

@[simp] theorem State.setProd_fuse (q v : Nat) : (s.setProd q v).fuse = s.fuse := by
  simp only [State.setProd, State.shadow, State.writeNum, State.ite_fuse, State.writeMem_fuse, ite_self]
  rfl

/-! The black box. -/

@[simp] theorem State.mirrorPush_fuse (bs : Bytes) : (s.mirrorPush bs).fuse = s.fuse := by
  unfold State.mirrorPush; split <;> rfl

@[simp] theorem State.bbxAppend_fuse (stamp typ status b14 b15 phys queue tag : Nat) (pay : Bytes) :
    (s.bbxAppend stamp typ status b14 b15 phys queue tag pay).fuse = s.fuse := by
  simp only [State.bbxAppend, State.mirrorPush_fuse, State.addWrap_fuse]
  exact State.each_fuse s _ fun _ _ => rfl

@[simp] theorem State.mirrorRoom_fuse : s.mirrorRoom.fuse = s.fuse := by
  unfold State.mirrorRoom
  split
  · rw [State.bbxMarker, State.bbxAppend_fuse, State.addSat_fuse]
  · rfl

@[simp] theorem State.bbxEvent_fuse (r : EvRec) : (s.bbxEvent r).fuse = s.fuse := by
  simp only [State.bbxEvent, State.bbxWrite, State.ite_fuse, State.addSat_fuse, State.bbxAppend_fuse,
    State.mirrorRoom_fuse, ite_self]

/-! Event records. -/

@[simp] theorem State.msixSend_fuse (fn vec : Nat) : (s.msixSend fn vec).fuse = s.fuse := by
  unfold State.msixSend; split <;> rfl

@[simp] theorem State.moderate_fuse (q severity : Nat) : (s.moderate q severity).fuse = s.fuse := by
  simp only [State.moderate, State.evInterrupt, State.ite_fuse, State.msixSend_fuse, State.modQueue_fuse,
    State.setFld_eq, State.setReg_fuse, ite_self]

@[simp] theorem State.ringWrite_fuse (q : Nat) (r : EvRec) : (s.ringWrite q r).fuse = s.fuse := by
  simp only [State.ringWrite, State.moderate_fuse, State.ite_fuse, State.setFld_eq, State.setReg_fuse, State.modQueue_fuse,
    State.addWrap_fuse, State.setProd_fuse, State.writeMem_fuse, ite_self]

@[simp] theorem State.ringCatchUp_fuse (q : Nat) : (s.ringCatchUp q).fuse = s.fuse := by
  unfold State.ringCatchUp
  split
  · rfl
  · simp only [State.ite_fuse, State.ringWrite_fuse, State.modQueue_fuse, ite_self]

@[simp] theorem State.deliver_fuse (q : Nat) (r : EvRec) : (s.deliver q r).fuse = s.fuse := by
  simp only [State.deliver, State.ite_fuse, State.ringWrite_fuse, State.ringDrop_fuse, State.ringCatchUp_fuse, ite_self]

@[simp] theorem State.releaseHold_fuse (a : Nat) : (s.releaseHold a).fuse = s.fuse := by
  simp only [State.releaseHold]
  split
  · rfl
  · split
    · rw [State.each_fuse _ _ fun r t => t.deliver_fuse _ r]
      simp only [State.ite_fuse, State.deliver_fuse, State.addSat_fuse, State.setHold_fuse, ite_self]
    · rfl

@[simp] theorem State.event_fuse (r : EvRec) : (s.event r).fuse = s.fuse := by
  simp only [State.event]
  split
  · simp only [State.deliver_fuse, State.releaseHold_fuse, State.bbxEvent_fuse]
  · simp only [State.setHold_fuse, State.releaseHold_fuse, State.bbxEvent_fuse]

/-! The tick. -/

@[simp] theorem State.countWaits_fuse : s.countWaits.fuse = s.fuse :=
  State.each_fuse s _ fun a t => by
    simp only [State.ite_fuse, State.addOpen_fuse, ite_self]

@[simp] theorem State.countBusy_fuse : s.countBusy.fuse = s.fuse :=
  State.each_fuse s _ fun m t => by split <;> rfl

@[simp] theorem State.countHeads_fuse : s.countHeads.fuse = s.fuse :=
  State.each_fuse s _ fun p t => by
    split
    · split <;> rfl
    · rfl

@[simp] theorem State.countThrottle_fuse : s.countThrottle.fuse = s.fuse := by
  unfold State.countThrottle; split <;> rfl

@[simp] theorem State.answerNear_fuse : s.answerNear.fuse = s.fuse :=
  State.each_fuse s _ fun i t => by split <;> rfl

@[simp] theorem State.showSlot_fuse (n : Nat) : (s.showSlot n).fuse = s.fuse := by
  simp only [State.showSlot]
  split <;> split <;> rfl

@[simp] theorem State.retireTables_fuse : s.retireTables.fuse = s.fuse :=
  State.each_fuse s _ fun n t => by
    split
    · rfl
    · split
      · rfl
      · rw [State.actEvent, State.event_fuse, State.each_fuse]
        · rw [State.showSlot_fuse]
        · exact fun _ _ => rfl

/-- A tick does not change the fuses. -/
theorem State.tick_fuse : s.tick.fuse = s.fuse := by
  unfold State.tick
  split
  · simp only [State.retireTables_fuse, State.answerNear_fuse, State.countThrottle_fuse, State.countHeads_fuse,
      State.halvesDone, State.countBusy_fuse, State.countWaits_fuse]
  · rfl

end Tick

/-- No step changes the fuses. -/
theorem Steps.fuse_eq {s t : State} (h : Steps s t) : t.fuse = s.fuse := by
  rw [Steps, step] at h
  cases hp : s.pending with
  | cons c rest =>
    rw [hp] at h
    exact (exec_fuse h).trans rfl
  | nil =>
    rw [hp] at h
    injection h with h
    rw [← h, State.tick_fuse]

end Sys2Proof.Machine
end

section
/-! The register map: where a register's copies lie, and what a read of CAP and of NET.CORE_n shows. -/

namespace Sys2Proof.Machine

/-! Copies of a register. -/

/-- How far the last copy of a register lies from its first. -/
def RegDef.span (r : RegDef) : Nat := (r.dims.map fun p => p.1 * (p.2 - 1)).sum

/-- A copy lies no further from the first than the last one. -/
theorem dimsHit_le : ∀ {ds : List (Nat × Nat)} {d : Nat}, dimsHit ds d = true →
    d ≤ (ds.map fun p => p.1 * (p.2 - 1)).sum
  | [], d, h => by simpa [dimsHit] using h
  | (st, n) :: ds, d, h => by
    simp only [dimsHit, Bool.and_eq_true, decide_eq_true_eq] at h
    obtain ⟨hq, hr⟩ := h
    have hrest := dimsHit_le hr
    have hfirst : st * (d / st) ≤ st * (n - 1) := Nat.mul_le_mul_left _ (by omega)
    have hd := Nat.div_add_mod d st
    simp only [List.map_cons, List.sum_cons]
    omega

/-- The distance of a copy is a multiple of what every stride is a multiple of. -/
theorem dimsHit_dvd {m : Nat} : ∀ {ds : List (Nat × Nat)} {d : Nat},
    (∀ p ∈ ds, m ∣ p.1) → dimsHit ds d = true → m ∣ d
  | [], d, _, h => by
    have hd : d = 0 := by simpa [dimsHit] using h
    simp [hd]
  | (st, n) :: ds, d, hds, h => by
    simp only [dimsHit, Bool.and_eq_true] at h
    have hst : m ∣ st := hds (st, n) (List.mem_cons_self ..)
    have hrest : m ∣ d % st := dimsHit_dvd (fun p hp => hds p (List.mem_cons_of_mem _ hp)) h.2
    exact (Nat.dvd_mod_iff hst).mp hrest

/-- A key names a register of the map of which a copy lies there. -/
theorem findReg_hit {k : Nat} {r : RegDef} (h : findReg k = some r) :
    r ∈ regMap ∧ r.base ≤ k ∧ dimsHit r.dims (k - r.base) = true := by
  have hp := List.find?_some h
  simp only [Bool.and_eq_true, decide_eq_true_eq] at hp
  exact ⟨List.mem_of_find?_eq_some h, hp⟩

/-- A key lies between the first and the last copy of the register that it names. -/
theorem findReg_within {k : Nat} {r : RegDef} (h : findReg k = some r) :
    r ∈ regMap ∧ r.base ≤ k ∧ k ≤ r.base + r.span := by
  obtain ⟨hr, hle, hd⟩ := findReg_hit h
  have := dimsHit_le hd
  exact ⟨hr, hle, by unfold RegDef.span; omega⟩

/-- Every copy of an 8-byte register is aligned to 8 bytes. -/
theorem findReg_aligned {k : Nat} {r : RegDef} (h : findReg k = some r) (h8 : r.bytes = 8) : k % 8 = 0 := by
  have hmap : ∀ r ∈ regMap, r.bytes = 8 → 8 ∣ r.base ∧ ∀ p ∈ r.dims, 8 ∣ p.1 := by decide +kernel
  obtain ⟨hr, hle, hd⟩ := findReg_hit h
  obtain ⟨hb, hst⟩ := hmap r hr h8
  have := dimsHit_dvd hst hd
  omega

/-! What a read returns. -/

/-- A register without WO fields reads what it shows, or else its stored word. -/
theorem State.regWord_of_readable (s : State) (k : Nat) {r : RegDef} (h : ∀ f ∈ r.fields, f.access ≠ .wo) :
    s.regWord k r = (s.shown k r).getD (s.reg k) := by
  unfold State.regWord
  generalize r.fields = fs at h
  induction fs with
  | nil => rfl
  | cons f fs ih =>
    rw [List.foldl_cons, if_neg (h f (List.mem_cons_self ..))]
    exact ih fun g hg => h g (List.mem_cons_of_mem _ hg)

/-- Only core windows, MD.VID_PIXELS and the far ports' block belong to resources that a grade lacks. -/
theorem State.absent_low (s : State) {k : Nat} (h : k < Reg.mdVidPixels 0 1) : s.absent k = false := by
  simp only [Reg.mdVidPixels] at h
  have h1 : ¬ 0x1000000 ≤ k := by omega
  have h2 : ¬ 0xA80000 ≤ k := by omega
  have h3 : k ≠ 0x604018 := by omega
  have h4 : k ≠ 0x605018 := by omega
  simp [State.absent, Reg.mdVidPixels, h1, h2, h3, h4]

/-- The keys of the registers of one copy, outside CAP, that show what the module holds elsewhere. -/
def viewKeys : List Nat :=
  [Reg.sckNow, Reg.sckAct 0, Reg.fabFault, Reg.bootFuse, Reg.mgtSerial, Reg.mgtSmb, Reg.pwrCoolant]

/-- The bases of the registers of many copies, outside core windows, that show what the module holds elsewhere. -/
def viewBases : List Nat :=
  [Reg.tsRefs 0, Reg.tsSlot 0, Reg.inStatus 0, Reg.inBatch 0, Reg.mdStatus 0, Reg.tokStatus 0, Reg.carSlot 0, Reg.carStatus 0,
   Reg.optStatus 0, Reg.lnkDegrades 0, Reg.bbxFlashData 0]

/-- A register of a resource that is there, outside core windows, CAP and the views, shows its stored word. -/
theorem State.shown_stored (s : State) {k : Nat} {r : RegDef} (habs : s.absent k = false) (hcap : 0x2000 ≤ k)
    (hwin : ¬ (0x1000000 ≤ k ∧ k < 0x1D00000)) (hk : k ∉ viewKeys) (hb : r.base ∉ viewBases) : s.shown k r = none := by
  simp only [viewKeys, viewBases, List.mem_cons, List.not_mem_nil, or_false, not_or] at hk hb
  have hcap' : ¬ k < 0x2000 := by omega
  simp only [State.shown, habs, hwin, hcap', hk, hb, Bool.false_eq_true, if_false]

/-! CAP. -/

/-- The registers from 0x1000 up to 0x2000 are those of CAP (Table 1.8), and none has a WO field. -/
theorem capRegs : ∀ r ∈ regMap, r.base < 0x2000 → 0x1000 ≤ r.base + r.span →
    ((r.base ∈ [Reg.capId, Reg.capCores, Reg.capMedia, Reg.capFar, Reg.capFabric] ∧ r.span = 0) ∨
      (0x1010 ≤ r.base ∧ r.base + r.span < 0x102C) ∨ (0x1030 ≤ r.base ∧ r.base + r.span < 0x104C)) ∧
    ∀ f ∈ r.fields, f.access ≠ .wo := by decide +kernel

/-- A choice whose first branch has a value has one when its condition holds or its second branch has one. -/
theorem isSome_ite_some {α : Type} (p : Prop) [Decidable p] (a : α) (o : Option α) :
    (if p then some a else o).isSome = true ↔ p ∨ o.isSome = true := by
  by_cases h : p
  · rw [if_pos h]
    simp only [Option.isSome_some, h, true_or]
  · rw [if_neg h]
    simp only [h, false_or]

/-- The fuses give the word of every CAP register. -/
theorem Fuses.cap_isSome (f : Fuses) {k : Nat} {r : RegDef} (hlo : 0x1000 ≤ k) (hhi : k < 0x2000)
    (h : findReg k = some r) : (f.cap k).isSome = true := by
  obtain ⟨hr, hle, hspan⟩ := findReg_within h
  have hk := (capRegs r hr (by omega) (by omega)).1
  simp only [List.mem_cons, List.not_mem_nil, or_false] at hk
  simp only [Fuses.cap, isSome_ite_some, Option.isSome_none, Bool.false_eq_true, or_false]
  simp only [Reg.capId, Reg.capCores, Reg.capMedia, Reg.capFar, Reg.capFabric] at hk ⊢
  omega

/-- A CAP register reads the word that the fuses give it. -/
theorem State.regWord_cap (s : State) {k : Nat} {r : RegDef} (hlo : 0x1000 ≤ k) (hhi : k < 0x2000)
    (h : findReg k = some r) : s.fuse.cap k = some (s.regWord k r) := by
  obtain ⟨hr, hle, hspan⟩ := findReg_within h
  have hwo := (capRegs r hr (by omega) (by omega)).2
  obtain ⟨v, hv⟩ := Option.isSome_iff_exists.mp (s.fuse.cap_isSome hlo hhi h)
  have habs : s.absent k = false := s.absent_low (by simp only [Reg.mdVidPixels]; omega)
  have hwin : ¬ (0x1000000 ≤ k ∧ k < 0x1D00000) := by omega
  rw [s.regWord_of_readable k hwo, State.shown, if_neg (by simp [habs]), if_neg hwin, if_pos hhi, hv, Option.getD_some]

/-- CAP.CORE_ENk is the k-th word of the map of enabled cores. -/
theorem Fuses.cap_coreEn (f : Fuses) {j : Nat} (h : j < 7) :
    f.cap (Reg.capCoreEn j) = some (bits f.enabled.toNat (32 * j) 32) := by
  have hk : Reg.capCoreEn j = 0x1010 + j * 4 := rfl
  have hid : Reg.capCoreEn j ≠ Reg.capId := by rw [hk, Reg.capId]; omega
  have hcores : Reg.capCoreEn j ≠ Reg.capCores := by rw [hk, Reg.capCores]; omega
  have hpos : 8 * (Reg.capCoreEn j - 0x1010) = 32 * j := by omega
  rw [Fuses.cap, if_neg hid, if_neg hcores, if_pos (by omega), hpos]

/-- CAP.CORE_SPk is the k-th word of the map of spares. -/
theorem Fuses.cap_coreSp (f : Fuses) {j : Nat} (h : j < 7) :
    f.cap (Reg.capCoreSp j) = some (bits f.spares.toNat (32 * j) 32) := by
  have hk : Reg.capCoreSp j = 0x1030 + j * 4 := rfl
  have hid : Reg.capCoreSp j ≠ Reg.capId := by rw [hk, Reg.capId]; omega
  have hcores : Reg.capCoreSp j ≠ Reg.capCores := by rw [hk, Reg.capCores]; omega
  have hpos : 8 * (Reg.capCoreSp j - 0x1030) = 32 * j := by omega
  rw [Fuses.cap, if_neg hid, if_neg hcores, if_neg (by omega), if_pos (by omega), hpos]

/-- The bit of a core in the word of a map that holds it. -/
theorem bit_mapWord (m : BitVec 208) (n : Nat) : bit (bits m.toNat (32 * (n / 32)) 32) (n % 32) = m.getLsbD n := by
  have hlt : n % 32 < 32 := Nat.mod_lt _ (by decide)
  rw [bit, testBit_bits, Nat.div_add_mod, decide_eq_true hlt, Bool.true_and, BitVec.getLsbD]

/-! NET.CORE_n. -/

/-- The registers that may lie among the NET.CORE_n are the NET.CORE_n, and none has a WO field. -/
theorem netCoreRegs : ∀ r ∈ regMap, r.base ≤ Reg.netCore 207 → Reg.netCore 0 ≤ r.base + r.span →
    r.base = Reg.netCore 0 ∧ ∀ f ∈ r.fields, f.access ≠ .wo := by decide +kernel

/-- NET.CORE_n reads its stored word. -/
theorem State.regWord_netCore (s : State) {n : Nat} {r : RegDef} (hn : n < 208) (h : findReg (Reg.netCore n) = some r) :
    s.regWord (Reg.netCore n) r = s.reg (Reg.netCore n) := by
  have hk : Reg.netCore n = 0xB00100 + n * 8 := rfl
  have h0 : Reg.netCore 0 = 0xB00100 := rfl
  have h207 : Reg.netCore 207 = 0xB00778 := rfl
  obtain ⟨hr, hle, hspan⟩ := findReg_within h
  obtain ⟨hb, hwo⟩ := netCoreRegs r hr (by omega) (by omega)
  have habs : s.absent (Reg.netCore n) = false := by
    have h1 : ¬ 0x1000000 ≤ Reg.netCore n := by omega
    have h2 : ¬ Reg.netCore n < 0xA80400 := by omega
    have h3 : Reg.netCore n ≠ Reg.mdVidPixels 0 1 := by rw [hk, Reg.mdVidPixels]; omega
    have h4 : Reg.netCore n ≠ Reg.mdVidPixels 1 1 := by rw [hk, Reg.mdVidPixels]; omega
    simp [State.absent, h1, h2, h3, h4]
  have hkey : Reg.netCore n ∉ viewKeys := fun hmem => by
    have hkeys : ∀ v ∈ viewKeys, v < Reg.netCore 0 ∨ Reg.netCore 207 < v := by decide
    have := hkeys _ hmem
    omega
  have hbase : r.base ∉ viewBases := by rw [hb]; decide
  rw [s.regWord_of_readable _ hwo, s.shown_stored habs (by omega) (by omega) hkey hbase, Option.getD_none]

/-- Settles O23: a CAP register reads what the fuses give it, and no step changes the fuses. -/
theorem capNeverChanges : Obligations.CapNeverChanges := by
  unfold Obligations.CapNeverChanges
  refine ⟨fun s t hst k r hlo hhi hr => ?_, fun s n r hn => ⟨fun hr => ?_, fun hr => ?_, fun hr => ?_⟩⟩
  · have hs := s.regWord_cap hlo hhi hr
    have ht := t.regWord_cap hlo hhi hr
    rw [hst.fuse_eq, hs] at ht
    exact (Option.some.inj ht).symm
  · have hk : Reg.capCoreEn (n / 32) = 0x1010 + n / 32 * 4 := rfl
    have hs := s.regWord_cap (by omega) (by omega) hr
    rw [s.fuse.cap_coreEn (by omega)] at hs
    rw [← Option.some.inj hs, bit_mapWord]
  · have hk : Reg.capCoreSp (n / 32) = 0x1030 + n / 32 * 4 := rfl
    have hs := s.regWord_cap (by omega) (by omega) hr
    rw [s.fuse.cap_coreSp (by omega)] at hs
    rw [← Option.some.inj hs, bit_mapWord]
  · rw [s.regWord_netCore hn hr]
    rfl

end Sys2Proof.Machine
end

section
/-! Host accesses to BAR0: which registers an access reaches, and what a read and a write do when they reach none, an absent
one, or TOP.SCRATCH. -/

namespace Sys2Proof.Machine

/-! The commands of host accesses. -/

/-- REGISTER_WRITE of a function that exists leaves what the write leaves. -/
theorem leaves_registerWrite {fn : Nat} (h : fn < 9) (off size val : Nat) (s : State) :
    Leaves (.registerWrite fn off size val) s (s.barWrite fn off size val) := by
  have he : exec (.registerWrite fn off size val) s = whenUnits s (okFn fn) (s.barWrite fn off size val) := rfl
  rwa [okFn, decide_eq_true h] at he

/-- RC_READ of a function that exists leaves what the read leaves. -/
theorem leaves_rcRead {fn : Nat} (h : fn < 9) (off size : Nat) (s : State) :
    Leaves (.rcRead fn off size) s (s.barReadCommand fn off size) := by
  have he : exec (.rcRead fn off size) s = whenUnits s (okFn fn) (s.barReadCommand fn off size) := rfl
  rwa [okFn, decide_eq_true h] at he

/-- UNSUPPORTED_BAR0_ACCESS of a function that exists, where accesses reach the module, is the refusal of a misaligned access. -/
theorem leaves_unsupportedBar0Access {s : State} {fn off size : Nat} (h : fn < 9) (hok : s.hostOk fn = true)
    (hal : barAligned off size = false) : Leaves (.unsupportedBar0Access fn off size) s (s.unsupported fn off) := by
  have he : exec (.unsupportedBar0Access fn off size) s =
    whenUnits s (okFn fn) (if s.hostOk fn && !barAligned off size then s.unsupported fn off else s) := rfl
  rwa [okFn, decide_eq_true h, hok, hal] at he

/-- A command that leaves a state of which only registers have changed gives that state. -/
theorem Leaves.gives_onlyRegs {c : Instr} {s u : State} {ks : List Nat} {P : State → Prop} (h : Leaves c s u)
    (hregs : OnlyRegs s u ks) (hP : P u) : Gives c s P := by
  have hu : { u with fuse := s.fuse, pending := s.pending } = u := by rw [hregs.1]
  rw [Leaves, hu] at h
  exact ⟨u, h, hP⟩

/-! Accesses of a wrong size or alignment. -/

/-- A misaligned write is refused. -/
theorem State.barWrite_misaligned {s : State} {fn off size : Nat} (val : Nat) (hok : s.hostOk fn = true)
    (hal : barAligned off size = false) : s.barWrite fn off size val = s.unsupported fn off := by
  simp [State.barWrite, hok, hal]

/-- A misaligned read is refused. -/
theorem State.barReadCommand_misaligned {s : State} {fn off size : Nat} (hok : s.hostOk fn = true)
    (hal : barAligned off size = false) : s.barReadCommand fn off size = s.unsupported fn off := by
  simp [State.barReadCommand, hok, hal]

/-! Reads. -/

/-- What a read clears leaves what the module has sent. -/
@[simp] theorem State.rcClear_out (s : State) (k : Nat) (r : RegDef) (lo n : Nat) : (s.rcClear k r lo n).out = s.out :=
  State.each_keeps (fun t => t.out = s.out) _ r.fields s (fun f _ t ht => by
    split
    · exact ht
    · exact ht) rfl

/-- An aligned read sends as many bytes as were asked for. -/
theorem State.barReadCommand_out {s : State} {fn off size : Nat} (hok : s.hostOk fn = true)
    (hal : barAligned off size = true) :
    (s.barReadCommand fn off size).out = s.out ++ [.data fn off (leBytes size (s.barRead fn off size))] := by
  simp only [State.barReadCommand, hok, hal, Bool.not_true, Bool.false_eq_true, if_false]
  refine State.each_keeps (fun t => t.out = s.out ++ [.data fn off (leBytes size (s.barRead fn off size))]) _ _ _
    (fun x _ t ht => ?_) (State.emit_out s _)
  split
  · exact ht
  · rw [State.rcClear_out, ht]

/-- Zero spelled in bytes is zeros. -/
theorem leBytes_zero : ∀ n : Nat, leBytes n 0 = List.replicate n 0
  | 0 => rfl
  | n + 1 => by rw [leBytes, Nat.zero_div, leBytes_zero n, List.replicate_succ]; rfl

/-! Accesses that change nothing. -/

/-- An aligned access that changes nothing: a write of it is ignored, and a read returns zeros and clears nothing. -/
def AccessIdle (s : State) (fn off size : Nat) : Prop :=
  (∀ val, s.barWrite fn off size val = s) ∧
    s.barReadCommand fn off size = s.emit (.data fn off (List.replicate size 0))

/-- The commands of an access that changes nothing. -/
theorem AccessIdle.leaves {s : State} {fn off size : Nat} (h : AccessIdle s fn off size) (hfn : fn < 9) (val : Nat) :
    Leaves (.registerWrite fn off size val) s s ∧
      Leaves (.rcRead fn off size) s (s.emit (.data fn off (List.replicate size 0))) := by
  obtain ⟨hw, hr⟩ := h
  have hwrite := leaves_registerWrite hfn off size val s
  have hread := leaves_rcRead hfn off size s
  rw [hw val] at hwrite
  rw [hr] at hread
  exact ⟨hwrite, hread⟩

/-- A register of an absent resource reads zero. -/
theorem State.regWord_absent {s : State} {k : Nat} (r : RegDef) (h : s.absent k = true) : s.regWord k r = 0 := by
  have hz : ∀ fs : List FieldDef, fs.foldl (fun w f => if f.access = .wo then putBits w f.fld.lo f.fld.w 0 else w) 0 = 0 := by
    intro fs
    induction fs with
    | nil => rfl
    | cons f fs ih => simpa [putBits] using ih
  rw [State.regWord, State.shown, if_pos h, Option.getD_some, hz]

/-- A write to a register of an absent resource is ignored. -/
theorem State.writeReg_absent {s : State} {fn k : Nat} (r : RegDef) (m v : Nat) (h : s.absent k = true) :
    s.writeReg fn k r m v = s := by
  simp [State.writeReg, State.writeShut, h]

/-- An aligned access that reaches only registers of absent resources changes nothing, when it is act 0's or lies past a virtual
function's cue entries and TROUPE. -/
theorem accessIdle_of_absent {s : State} {fn off size : Nat} (hok : s.hostOk fn = true) (hal : barAligned off size = true)
    (hview : fn = 0 ∨ 0x8600 ≤ off) (h : ∀ x ∈ s.reached fn off size, s.absent x.1 = true) : AccessIdle s fn off size := by
  have htr : ¬ (fn ≠ 0 ∧ 0x8000 ≤ off ∧ off < 0x8600) := by omega
  have hcue : s.cueForeign fn off = false := by
    rcases hview with rfl | hoff
    · rfl
    · have : ¬ off < 0x8000 := by omega
      simp [State.cueForeign, this]
  have hread : s.barRead fn off size = 0 := by
    rw [State.barRead, if_neg htr, hcue]
    generalize s.reached fn off size = l at h
    induction l with
    | nil => rfl
    | cons x l ih =>
      have hx : s.regWord x.1 x.2.1 = 0 := State.regWord_absent _ (h x (List.mem_cons_self ..))
      simpa [hx, bits] using ih fun y hy => h y (List.mem_cons_of_mem _ hy)
  refine ⟨fun val => ?_, ?_⟩
  · simp only [State.barWrite, hok, hal, htr, hcue, Bool.not_true, Bool.false_eq_true, if_false]
    refine State.each_keeps (fun t => t = s) _ _ s (fun x hx t ht => ?_) rfl
    subst ht
    exact State.writeReg_absent _ _ _ (h x hx)
  · simp only [State.barReadCommand, hok, hal, hcue, Bool.not_true, Bool.false_eq_true, if_false, hread, leBytes_zero]
    refine State.each_keeps (fun t => t = s.emit (.data fn off (List.replicate size 0))) _ _ _ (fun x hx t ht => ?_) rfl
    subst ht
    have habs : (s.emit (.data fn off (List.replicate size 0))).absent x.1 = true := h x hx
    rw [habs, Bool.true_or, if_pos rfl]

/-! Absent resources (R30). -/

/-- The half of a register at a key lies at the key, or in the upper half of the 8-byte register 4 bytes below. -/
theorem halfAt_cases {key : Nat} {x : Nat × RegDef × Bool} (h : halfAt key = some x) :
    findReg x.1 = some x.2.1 ∧ (x.1 = key ∨ x.1 + 4 = key ∧ x.1 % 8 = 0) := by
  unfold halfAt at h
  split at h
  · next r hr =>
    cases h
    exact ⟨hr, .inl rfl⟩
  · split at h
    · next r hr =>
      have hle : 4 ≤ key := Decidable.byContradiction fun hlt => by
        rw [if_neg hlt] at hr
        cases hr
      rw [if_pos hle] at hr
      split at h
      · next h8 =>
        cases h
        exact ⟨hr, .inr ⟨Nat.sub_add_cancel hle, findReg_aligned hr h8⟩⟩
      · cases h
    · cases h

/-- Past the blocks of the queues an offset of the PF is its own key. -/
theorem State.barKey_high (s : State) (fn : Nat) {off : Nat} (h : 0x601000 ≤ off) : s.barKey fn off = some off := by
  have h1 : ¬ off < 0x400000 := by omega
  have h2 : ¬ (off < 0x400008 ∨ (0x400060 ≤ off ∧ off < 0x400068)) := by omega
  have h3 : ¬ off < 0x400060 := by omega
  have h4 : ¬ (0x500000 ≤ off ∧ off < 0x600000) := by omega
  have h5 : ¬ (0x600000 ≤ off ∧ off < 0x601000) := by omega
  rw [State.barKey, if_neg h1, if_neg h2, if_neg h3, if_neg h4, if_neg h5]

/-- The part of an access from its bit `lo` on whose 32-bit half lies at PF offset `o`, if a register has one there. -/
def State.halfReached (s : State) (fn o lo : Nat) : List (Nat × RegDef × Bool × Nat × Nat) :=
  match (s.barKey fn o).bind halfAt with
  | some (k, r, up) => [(k, r, up, lo, 32)]
  | none => []

/-- The register of a half: at the half's key, or 4 bytes below it. -/
theorem State.mem_halfReached {s : State} {fn o lo : Nat} {x : Nat × RegDef × Bool × Nat × Nat}
    (h : x ∈ s.halfReached fn o lo) : ∃ key, s.barKey fn o = some key ∧ findReg x.1 = some x.2.1 ∧
      (x.1 = key ∨ x.1 + 4 = key ∧ x.1 % 8 = 0) := by
  unfold State.halfReached at h
  split at h
  · next k r up hb =>
    obtain ⟨key, hkey, hh⟩ := Option.bind_eq_some_iff.mp hb
    rw [List.mem_singleton] at h
    subst h
    exact ⟨key, hkey, halfAt_cases hh⟩
  · cases h

/-- An access reaches the half at its offset, and one of 8 bytes also the half past it, or the whole register there. -/
theorem State.mem_reached {s : State} {fn off size : Nat} {x : Nat × RegDef × Bool × Nat × Nat}
    (h : x ∈ s.reached fn off size) : ∃ o, pfOffset fn off = some o ∧ (x ∈ s.halfReached fn o 0 ∨
      size ≠ 4 ∧ (x ∈ s.halfReached fn (o + 4) 32 ∨ s.barKey fn o = some x.1 ∧ findReg x.1 = some x.2.1)) := by
  unfold State.reached at h
  split at h
  · cases h
  · next o ho =>
    refine ⟨o, ho, ?_⟩
    split at h
    · exact .inl h
    · next h4 =>
      split at h
      · next k r hb =>
        obtain ⟨key, hkey, hmap⟩ := Option.bind_eq_some_iff.mp hb
        obtain ⟨r', hr', hkr⟩ := Option.map_eq_some_iff.mp hmap
        cases hkr
        split at h
        · rw [List.mem_singleton] at h
          subst h
          exact .inr ⟨h4, .inr ⟨hkey, hr'⟩⟩
        · rcases List.mem_append.mp h with h | h
          · exact .inl h
          · exact .inr ⟨h4, .inl h⟩
      · exact .inr ⟨h4, .inl h⟩

/-- The PF offset of an access of act 0 is its offset. -/
theorem pfOffset_zero {off o : Nat} (h : pfOffset 0 off = some o) : o = off := by
  rw [pfOffset, if_neg (by simp)] at h
  split at h
  · exact (Option.some.inj h).symm
  · cases h

/-- Past the blocks of the queues an aligned access of act 0 reaches registers of its own 8 bytes only. -/
theorem State.reached_high {s : State} {off size : Nat} (hal : barAligned off size = true) (h : 0x601000 ≤ off)
    {x : Nat × RegDef × Bool × Nat × Nat} (hx : x ∈ s.reached 0 off size) :
    findReg x.1 = some x.2.1 ∧ x.1 / 8 = off / 8 := by
  simp only [barAligned, Bool.and_eq_true, Bool.or_eq_true, decide_eq_true_eq] at hal
  obtain ⟨hsize, hmod⟩ := hal
  have hhalf : ∀ o lo, off ≤ o → o % 4 = 0 → o < off / 8 * 8 + 8 → x ∈ s.halfReached 0 o lo →
      findReg x.1 = some x.2.1 ∧ x.1 / 8 = off / 8 := by
    intro o lo hle h4 hlt hx
    obtain ⟨key, hkey, hr, hpos⟩ := State.mem_halfReached hx
    rw [s.barKey_high 0 (by omega)] at hkey
    cases hkey
    exact ⟨hr, by omega⟩
  have hmod4 : off % 4 = 0 := by rcases hsize with rfl | rfl <;> omega
  obtain ⟨o, ho, hcases⟩ := State.mem_reached hx
  obtain rfl := pfOffset_zero ho
  rcases hcases with hlow | ⟨hne, hhigh | ⟨hkey, hr⟩⟩
  · exact hhalf o 0 (Nat.le_refl o) hmod4 (by omega) hlow
  · obtain rfl : size = 8 := by omega
    exact hhalf (o + 4) 32 (by omega) (by omega) (by omega) hhigh
  · rw [s.barKey_high 0 h] at hkey
    cases hkey
    exact ⟨hr, rfl⟩

/-- An aligned access of act 0 to 8 bytes past the blocks of the queues that hold only registers of absent resources changes
nothing. -/
theorem accessIdle_high {s : State} {off size : Nat} (hok : s.hostOk 0 = true) (hal : barAligned off size = true)
    (hoff : 0x601000 ≤ off) (h : ∀ k r, findReg k = some r → k / 8 = off / 8 → s.absent k = true) :
    AccessIdle s 0 off size :=
  accessIdle_of_absent hok hal (.inl rfl) fun x hx => by
    obtain ⟨hr, h8⟩ := State.reached_high hal hoff hx
    exact h x.1 x.2.1 hr h8

/-- The window of a core that is fused off is absent. -/
theorem State.absent_of_fusedOff {s : State} {k : Nat} (n : Nat) (hn : n < 208) (h : s.coreState n = 0)
    (hlo : 0x1000000 + n * 0x10000 ≤ k) (hhi : k < 0x1000000 + (n + 1) * 0x10000) : s.absent k = true := by
  have hcore : (k - 0x1000000) / 0x10000 = n := by omega
  have h1 : 0x1000000 ≤ k := by omega
  have h2 : k < 0x1D00000 := by omega
  simp [State.absent, hcore, h, h1, h2]

/-- The block of a far port that is not bonded is absent. -/
theorem State.absent_of_unbonded {s : State} {k : Nat} (p : Nat) (hp : p < 4) (h : s.farBonded p = false)
    (hlo : 0xA80000 + p * 0x100 ≤ k) (hhi : k < 0xA80000 + (p + 1) * 0x100) : s.absent k = true := by
  have hport : (k - 0xA80000) / 0x100 = p := by omega
  have h1 : 0xA80000 ≤ k := by omega
  have h2 : k < 0xA80400 := by omega
  simp [State.absent, hport, h, h1, h2]

/-- On a PN96-B the second video block of a Midway is absent. -/
theorem State.absent_of_grade {s : State} (h : s.fuse.grade ≠ 1) {m : Nat} (hm : m < 2) :
    s.absent (Reg.mdVidPixels m 1) = true := by
  obtain rfl | rfl : m = 0 ∨ m = 1 := by omega
  · simp [State.absent, h]
  · simp [State.absent, h]

/-- MD.VID_PIXELS is the one register of its 8 bytes. -/
theorem eq_mdVidPixels {k m : Nat} {r : RegDef} (hm : m < 2) (hr : findReg k = some r)
    (h : k / 8 * 8 = Reg.mdVidPixels m 1) : k = Reg.mdVidPixels m 1 := by
  have hregs : ∀ r ∈ regMap, ∀ m < 2, r.base ≤ Reg.mdVidPixels m 1 + 7 → Reg.mdVidPixels m 1 ≤ r.base + r.span →
      r.bytes = 8 := by decide +kernel
  obtain ⟨hmem, hle, hspan⟩ := findReg_within hr
  have := findReg_aligned hr (hregs r hmem m hm (by omega) (by omega))
  omega

/-- Settles O22: each of the three places reaches only registers that are absent. -/
theorem absentResourcesReadZeroAndIgnoreWrites : Obligations.AbsentResourcesReadZeroAndIgnoreWrites := by
  unfold Obligations.AbsentResourcesReadZeroAndIgnoreWrites
  intro s off size val hok hal hplace
  refine AccessIdle.leaves ?_ (by decide) val
  rcases hplace with ⟨n, hn, hcore, hlo, hhi⟩ | ⟨hgrade, m, hm, hoff⟩ | ⟨p, hp, hfar, hlo, hhi⟩
  · refine accessIdle_high hok hal (by omega) fun k r _ h8 => ?_
    exact State.absent_of_fusedOff n hn hcore (by omega) (by omega)
  · have hkey : Reg.mdVidPixels m 1 = 0x604010 + m * 0x1000 + 1 * 0x8 := rfl
    refine accessIdle_high hok hal (by omega) fun k r hr h8 => ?_
    rw [eq_mdVidPixels hm hr (by omega)]
    exact State.absent_of_grade hgrade hm
  · refine accessIdle_high hok hal (by omega) fun k r _ h8 => ?_
    exact State.absent_of_unbonded p hp hfar (by omega) (by omega)

end Sys2Proof.Machine
end

section
/-! What a plain write leaves in a register, and the sizes and alignments that BAR0 takes (R28). -/

namespace Sys2Proof.Machine

/-! Bits that a write covers. -/

/-- The bits of a number that the mask of a field covers. -/
theorem and_fieldMask (x lo w : Nat) : x &&& ((2 ^ w - 1) * 2 ^ lo) = (x >>> lo % 2 ^ w) <<< lo := by
  apply Nat.eq_of_testBit_eq
  intro i
  rw [Nat.testBit_and, Nat.testBit_mul_two_pow, Nat.testBit_shiftLeft, Nat.testBit_mod_two_pow, Nat.testBit_shiftRight,
    Nat.testBit_two_pow_sub_one]
  by_cases h : lo ≤ i
  · simp [h, Nat.add_sub_cancel' h, Bool.and_comm]
  · simp [h]

/-- Merging the bits of a field puts the field. -/
theorem mergeBits_fieldMask (old lo w v : Nat) : mergeBits old ((2 ^ w - 1) * 2 ^ lo) v = putBits old lo w (v >>> lo) := by
  rw [mergeBits, and_fieldMask, and_fieldMask, putBits]

/-! Plain writes. -/

/-- Every register is a 64-bit number at reset. -/
theorem resetReg_lt (f : Fuses) (k : Nat) : resetReg f k < 2 ^ 64 := by
  have hmap : ∀ r ∈ regMap, r.resetWord < 2 ^ 64 := by decide +kernel
  unfold resetReg
  split
  · unfold Fuses.coreState
    split
    · decide
    · split <;> decide
  · split
    · next r hr => exact hmap r (findReg_hit hr).1
    · decide

/-- What a plain write leaves in its register. -/
theorem State.plainWrite_reg (s : State) (k : Nat) (r : RegDef) (m v : Nat) :
    (s.plainWrite k r m v).reg k = ruledWrite r m v (s.reg k) % 2 ^ 64 := by
  simp only [State.plainWrite]
  split
  · next h => rw [h, Nat.mod_eq_of_lt (s.reg_lt (resetReg_lt s.fuse k))]
  · exact s.reg_setReg_same k _

/-- A plain write changes its register only. -/
theorem State.plainWrite_onlyRegs (s : State) (k : Nat) (r : RegDef) (m v : Nat) : OnlyRegs s (s.plainWrite k r m v) [k] := by
  simp only [State.plainWrite]
  split
  · exact ⟨rfl, fun _ _ => rfl⟩
  · exact ⟨rfl, fun k' hk' => s.reg_setReg_other (by simpa using hk') _⟩

/-- A write that is taken, to a register without a step of its own, is plain. -/
theorem State.writeReg_plain {s : State} {fn k : Nat} {r : RegDef} (m v : Nat)
    (htaken : fn ≠ 0 ∨ s.started = true ∨ s.early k = true) (hshut : s.writeShut k r = false)
    (hown : r.base ∉ Claims.ownSteps) (hcue : r.base < Reg.cueFireAt 0 ∨ Reg.cueArg 0 < r.base) :
    s.writeReg fn k r m v = s.plainWrite k r m v := by
  have hc : ¬ (Reg.cueFireAt 0 ≤ r.base ∧ r.base ≤ Reg.cueArg 0) := by omega
  have ht : ¬ ((fn = 0 && !s.started && !s.early k) || s.writeShut k r) = true := by
    rcases htaken with h | h | h <;> simp [h, hshut]
  simp only [Claims.ownSteps, List.mem_cons, List.not_mem_nil, or_false, not_or] at hown
  simp only [State.writeReg, if_neg ht, hown, hc, if_false]

/-! TOP.SCRATCH. -/

/-- The definition of TOP.SCRATCH (Table 1.7). -/
def scratchDef : RegDef := { base := Reg.topScratch, dims := [], bytes := 8, fields := [⟨⟨0, 64⟩, .rw, 0, false, []⟩] }

/-- The 8-byte access to TOP.SCRATCH reaches the whole register. -/
theorem State.reached_scratch (s : State) : s.reached 0 Reg.topScratch 8 = [(Reg.topScratch, scratchDef, false, 0, 64)] := rfl

/-- The 4-byte access to its offset reaches the lower half. -/
theorem State.reached_scratch_low (s : State) :
    s.reached 0 Reg.topScratch 4 = [(Reg.topScratch, scratchDef, false, 0, 32)] := rfl

/-- The 4-byte access past it reaches the upper half. -/
theorem State.reached_scratch_high (s : State) :
    s.reached 0 (Reg.topScratch + 4) 4 = [(Reg.topScratch, scratchDef, true, 0, 32)] := rfl

/-- Writes to TOP.SCRATCH are taken at any time and are plain. -/
theorem State.writeReg_scratch (s : State) (m v : Nat) :
    s.writeReg 0 Reg.topScratch scratchDef m v = s.plainWrite Reg.topScratch scratchDef m v := by
  have habs : s.absent Reg.topScratch = false := s.absent_low (by decide)
  have hwin : s.windowShut Reg.topScratch = false := rfl
  have hcfg : isConfig scratchDef.base = false := by decide
  have hbkt : scratchDef.base ≠ Reg.carBktCtl 0 := by decide
  refine State.writeReg_plain m v (.inr (.inr rfl)) ?_ (by decide) (.inl (by decide))
  simp [State.writeShut, habs, hwin, hcfg, hbkt]

/-- Putting all the bits of a 64-bit number replaces it. -/
theorem putBits_whole {x v : Nat} (hx : x < 2 ^ 64) : putBits x 0 64 v = v % 2 ^ 64 := by
  rw [← bits_putBits_same x 0 64 v, bits_zero_of_lt (putBits_lt hx (by decide))]

/-- A write of the bits of a field leaves them in TOP.SCRATCH. -/
theorem ruledWrite_scratch {lo w v old : Nat} (h : lo + w ≤ 64) (hold : old < 2 ^ 64) (hv : v < 2 ^ w) :
    ruledWrite scratchDef ((2 ^ w - 1) * 2 ^ lo) (v * 2 ^ lo) old = putBits old lo w v := by
  have hfits : ∀ {u : Nat}, u < 2 ^ w → u * 2 ^ lo < 2 ^ 64 := fun {u} hu =>
    calc u * 2 ^ lo < 2 ^ w * 2 ^ lo := Nat.mul_lt_mul_of_pos_right hu (Nat.two_pow_pos lo)
      _ = 2 ^ (lo + w) := by rw [Nat.pow_add, Nat.mul_comm]
      _ ≤ 2 ^ 64 := Nat.pow_le_pow_right (by decide) h
  have hm := hfits (Nat.sub_lt (Nat.two_pow_pos w) Nat.one_pos)
  have hshift : (v * 2 ^ lo) >>> lo = v := by
    rw [Nat.shiftRight_eq_div_pow, Nat.mul_div_cancel _ (Nat.two_pow_pos lo)]
  have hword : ∀ m u, ruledWrite scratchDef m u old = putBits old 0 64 (mergeBits (bits old 0 64) (bits m 0 64) (bits u 0 64)) :=
    fun _ _ => rfl
  rw [hword, bits_zero_of_lt hold, bits_zero_of_lt hm, bits_zero_of_lt (hfits hv), mergeBits_fieldMask, hshift,
    putBits_whole hold, Nat.mod_eq_of_lt (putBits_lt hold h)]

/-- A write of act 0 that reaches `w` bits of TOP.SCRATCH leaves its value there and changes nothing else. -/
theorem gives_scratchWrite {s : State} {off size lo w : Nat} {up : Bool} (val : Nat) (hok : s.hostOk 0 = true)
    (hal : barAligned off size = true) (hreach : s.reached 0 off size = [(Reg.topScratch, scratchDef, up, 0, w)])
    (hlo : (if up = true then 2 ^ 32 else 1) = 2 ^ lo) (h : lo + w ≤ 64) : Gives (.registerWrite 0 off size val) s fun t =>
      t.reg Reg.topScratch = putBits (s.reg Reg.topScratch) lo w (bits val 0 w) ∧ OnlyRegs s t [Reg.topScratch] := by
  have hwrite := leaves_registerWrite (fn := 0) (by decide) off size val s
  have hplain : s.barWrite 0 off size val =
      s.plainWrite Reg.topScratch scratchDef ((2 ^ w - 1) * 2 ^ lo) (bits val 0 w * 2 ^ lo) := by
    have hcue : s.cueForeign 0 off = false := rfl
    simp only [State.barWrite, hok, hal, hcue, hreach, State.each_cons, State.each_nil, hlo, State.writeReg_scratch,
      Bool.not_true, Bool.false_eq_true, ne_eq, not_true_eq_false, false_and, if_false]
  rw [hplain] at hwrite
  have hlt := s.reg_lt (resetReg_lt s.fuse Reg.topScratch)
  refine hwrite.gives_onlyRegs (s.plainWrite_onlyRegs ..) ⟨?_, s.plainWrite_onlyRegs ..⟩
  rw [State.plainWrite_reg, ruledWrite_scratch h hlt (bits_lt val 0 w), Nat.mod_eq_of_lt (putBits_lt hlt h)]

/-- Settles O21: misaligned accesses are refused, aligned reads are answered, TOP.SCRATCH takes writes of 8 and 4 bytes, and
an access that reaches no register changes nothing. -/
theorem accessesFollowSizeAndAlignment : Obligations.AccessesFollowSizeAndAlignment := by
  unfold Obligations.AccessesFollowSizeAndAlignment
  intro s fn off size val hfn hok
  refine ⟨fun hal => ?_, fun hal => ?_, fun hok0 => ⟨?_, ?_, ?_⟩, fun hal hnone hview => ?_⟩
  case refine_1 =>
    refine ⟨plainRec 0x0E (openSeverity 0x0E 0x03) 0x03 0 s.now [], rfl, rfl, ?_⟩
    have hread := leaves_rcRead hfn off size s
    have hwrite := leaves_registerWrite hfn off size val s
    rw [State.barReadCommand_misaligned hok hal] at hread
    rw [State.barWrite_misaligned val hok hal] at hwrite
    exact ⟨leaves_unsupportedBar0Access hfn hok hal, hread, hwrite⟩
  case refine_2 =>
    exact ⟨_, leaves_rcRead hfn off size s, _, leBytes_length .., State.barReadCommand_out hok hal⟩
  case refine_3 =>
    have hlt := s.reg_lt (resetReg_lt s.fuse Reg.topScratch)
    obtain ⟨t, ht, hreg, honly⟩ := gives_scratchWrite (lo := 0) val hok0 (by decide) s.reached_scratch rfl (by decide)
    exact ⟨t, ht, by rw [hreg, putBits_whole hlt]; simp [bits], honly⟩
  case refine_4 =>
    obtain ⟨t, ht, hreg, honly⟩ := gives_scratchWrite (lo := 0) val hok0 (by decide) s.reached_scratch_low rfl (by decide)
    refine ⟨t, ht, honly, ?_, ?_⟩
    · rw [hreg, bits_putBits_same]; simp [bits]
    · rw [hreg, bits_putBits_other _ _ _ _ _ _ (by decide)]
  case refine_5 =>
    obtain ⟨t, ht, hreg, honly⟩ := gives_scratchWrite (lo := 32) val hok0 (by decide) s.reached_scratch_high rfl (by decide)
    refine ⟨t, ht, honly, ?_, ?_⟩
    · rw [hreg, bits_putBits_same]; simp [bits]
    · rw [hreg, bits_putBits_other _ _ _ _ _ _ (by decide)]
  case refine_6 =>
    refine (accessIdle_of_absent hok hal hview fun x hx => ?_).leaves hfn val
    rw [hnone] at hx
    cases hx

end Sys2Proof.Machine
end
